-- ==== Sys2Proof/Word.lean ====
section
/-! DEFINITION. The value types of the CDFS unit: wide values, bytes, register numbers and the fixed-size byte
buffers (spec/10_state.md R20, R21; spec/20_memory.md R60, R63; spec/40_wide_arithmetic.md R120). -/

namespace Sys2Proof

/-- One byte of a buffer, a frame or a stream. -/
abbrev Byte := BitVec 8

/-- A wide value: an unsigned integer below `2^128` (R120).  Every 128-bit pattern is a value. -/
abbrev Wide := BitVec 128

/-- A 32-bit word: the command word, the CRC accumulator, a type tag, a version, a checksum. -/
abbrev Word32 := BitVec 32

/-- The number of a wide register, `w0` to `w15` (R21, R22: all sixteen numbers are legal). -/
abbrev Reg := Fin 16

/-- A byte buffer of exactly `n` bytes (R63: it has no offsets outside its own bounds). -/
abbrev Buffer (n : Nat) := Vector Byte n

/-- The physical frame record: always exactly 256 bytes (R60). -/
abbrev Frame := Buffer 256

/-- The payload staging buffer's type: 240 bytes (R29). -/
abbrev Payload := Buffer 240

/-- A label: 32 opaque bytes (R30, R182). -/
abbrev Label := Buffer 32

/-- The buffer whose bytes are all zero. -/
abbrev zeroBuffer (n : Nat) : Buffer n := Vector.replicate n 0

end Sys2Proof
end

