-- ==== Sys2Proof/Config.lean ====
section
/-! DEFINITION. The implementation parameters of the hardware, in one record (spec/00_scope.md R7, which asks for it;
R40: parameters of the step, not state).  The widths 128, 256, 240 and 32 also stand in the types of Word.lean. -/

namespace Sys2Proof

/-- The parameter table of R7, one field per row. -/
structure Config where
  wideBits : Nat
  limbBits : Nat
  limbs : Nat
  nreg : Nat
  frameBytes : Nat
  payloadBytes : Nat
  payloadOff : Nat
  cksumOff : Nat
  labelBytes : Nat
  cmdBits : Nat
  busBits : Nat
  crcPoly : Word32
  crcInit : Word32
  crcXorOut : Word32
  formatVersion : Word32
  supportedVersion : Word32
  /-- BYTE_ORDER: true is little-endian, the only order this hardware has (R64). -/
  littleEndian : Bool
  tagHead : Word32
  tagFinf : Word32
  tagData : Word32
  tagCont : Word32
  tagMeta : Word32
  deriving DecidableEq, Repr

/-- The values this hardware takes (R7). -/
def cfg : Config where
  wideBits := 128
  limbBits := 64
  limbs := 2
  nreg := 16
  frameBytes := 256
  payloadBytes := 240
  payloadOff := 12
  cksumOff := 252
  labelBytes := 32
  cmdBits := 32
  busBits := 128
  crcPoly := 0xEDB88320
  crcInit := 0xFFFFFFFF
  crcXorOut := 0xFFFFFFFF
  formatVersion := 0x00000100
  supportedVersion := 0x00000100
  littleEndian := true
  tagHead := 0x44414548
  tagFinf := 0x464E4946
  tagData := 0x41544144
  tagCont := 0x544E4F43
  tagMeta := 0x4154454D

end Sys2Proof
end

