-- ==== Sys2Proof/Syntax.lean ====
section
/-! DEFINITION. The command set CDFS-CMD version 1: one constructor per row of spec/opcode_table.json
(spec/30_encoding.md R94).  Register fields are register numbers; every immediate is an unsigned integer (R93),
written as a natural number whose bound is checked in WellFormed.lean. -/

namespace Sys2Proof

/-- The 52 commands of R94, in the table's order. -/
inductive Instr where
  -- WAU, wide arithmetic (spec/40_wide_arithmetic.md)
  | wld (rd : Reg)
  | wldu (rd : Reg)
  | wrd (ra : Reg)
  | wmov (rd ra : Reg)
  | wcvt8 (ra : Reg)
  | wcvt16 (ra : Reg)
  | wcvt32 (ra : Reg)
  | wcvt64 (ra : Reg)
  | wadd (rd ra rb : Reg)
  | wsub (rd ra rb : Reg)
  | wmul (rd ra rb : Reg)
  | wdiv (rd ra rb : Reg)
  | wmod (rd ra rb : Reg)
  | winc (rd ra : Reg)
  | wdec (rd ra : Reg)
  | wcmp (ra rb : Reg)
  | wand (rd ra rb : Reg)
  | wor (rd ra rb : Reg)
  | wxor (rd ra rb : Reg)
  | wnot (rd ra : Reg)
  | wshl (rd ra rb : Reg)
  | wshr (rd ra rb : Reg)
  | wshli (rd ra : Reg) (imm16 : Nat)
  | wshri (rd ra : Reg) (imm16 : Nat)
  -- CRC, the CRC-32 engine (spec/41_crc32.md)
  | crcinit
  | crcpb (imm16 : Nat)
  | crcpr (off len : Nat)
  | crcpk
  | crcrd
  -- FB, the frame buffer (spec/42_frame_buffer.md)
  | fnew (kind : Nat)
  | fchk (kind : Nat)
  | fget (view fld idx : Nat)
  | fset (view fld idx : Nat)
  | fval
  | fisv
  -- staging (spec/45_system_and_staging.md)
  | pbw (idx : Nat)
  | pbr (idx : Nat)
  | lblw (half : Nat)
  | lblr (half : Nat)
  -- SEQ, the Builder (spec/43_builder.md)
  | binit
  | bwhead
  | bwheadx (ra rb : Reg)
  | bwdata (size : Nat)
  | bwcont
  | bwfin
  -- SEQ, the Loader (spec/44_loader.md)
  | linit
  | lnext
  | lgdata (limit : Nat)
  | lchk
  | lgetf
  | lglbl
  -- system (spec/45_system_and_staging.md)
  | srd (rd : Reg) (sreg : Nat)
  deriving DecidableEq, Repr

end Sys2Proof
end

