-- ==== Sys2Proof/WellFormed.lean ====
section
/-! DEFINITION. Well-formed instructions: every immediate fits the field that carries it (spec/30_encoding.md R91,
R92).  This is what an instruction needs to have an encoding.  The narrower operand RANGES of R109 are no part of
it: a word outside them decodes, and its command answers ILLEGAL_OPERAND when it runs (R96, R109). -/

namespace Sys2Proof

/-- `v` fits a field of `bits` bits. -/
def fits (bits v : Nat) : Bool := decide (v < 2 ^ bits)

/-- The immediates of an instruction fit their fields: `imm16` 16 bits, `a8` 8 bits, `view` and `fld` 4 bits,
`idx` 12 bits (R91). -/
def Instr.wellFormed : Instr → Bool
  | .wshli _ _ imm16 => fits 16 imm16
  | .wshri _ _ imm16 => fits 16 imm16
  | .crcpb imm16 => fits 16 imm16
  | .crcpr off len => fits 8 off && fits 16 len
  | .fnew kind => fits 16 kind
  | .fchk kind => fits 16 kind
  | .fget view fld idx => fits 4 view && fits 4 fld && fits 12 idx
  | .fset view fld idx => fits 4 view && fits 4 fld && fits 12 idx
  | .pbw idx => fits 16 idx
  | .pbr idx => fits 16 idx
  | .lblw half => fits 16 half
  | .lblr half => fits 16 half
  | .bwdata size => fits 16 size
  | .lgdata limit => fits 16 limit
  | .srd _ sreg => fits 16 sreg
  | .wld _ => true
  | .wldu _ => true
  | .wrd _ => true
  | .wmov _ _ => true
  | .wcvt8 _ => true
  | .wcvt16 _ => true
  | .wcvt32 _ => true
  | .wcvt64 _ => true
  | .wadd _ _ _ => true
  | .wsub _ _ _ => true
  | .wmul _ _ _ => true
  | .wdiv _ _ _ => true
  | .wmod _ _ _ => true
  | .winc _ _ => true
  | .wdec _ _ => true
  | .wcmp _ _ => true
  | .wand _ _ _ => true
  | .wor _ _ _ => true
  | .wxor _ _ _ => true
  | .wnot _ _ => true
  | .wshl _ _ _ => true
  | .wshr _ _ _ => true
  | .crcinit => true
  | .crcpk => true
  | .crcrd => true
  | .fval => true
  | .fisv => true
  | .binit => true
  | .bwhead => true
  | .bwheadx _ _ => true
  | .bwcont => true
  | .bwfin => true
  | .linit => true
  | .lnext => true
  | .lchk => true
  | .lgetf => true
  | .lglbl => true

end Sys2Proof
end

