-- ==== Sys2Proof/Decode.lean ====
section
/-! DEFINITION. The command encoding: the field layout, the formats and their must-be-zero bits, the opcode map, the
total decoder and, after it, the encoder (spec/30_encoding.md R90 to R96, R108). -/

namespace Sys2Proof

/-- Why a word is `Illegal` (R96, R108). -/
inductive Illegal where
  /-- The opcode is none of the 52 assigned ones. -/
  | unassignedOpcode
  /-- The opcode is assigned and a bit its format requires to be 0 is 1. -/
  | mustBeZeroBit
  deriving DecidableEq, Repr

/-! The fields of R91, each an unsigned number taken directly from its bits (R93). -/

def opOf (c : Word32) : Nat := (c.extractLsb' 24 8).toNat
def rdOf (c : Word32) : Reg := (c.extractLsb' 20 4).toFin
def raOf (c : Word32) : Reg := (c.extractLsb' 16 4).toFin
def rbOf (c : Word32) : Reg := (c.extractLsb' 12 4).toFin
def imm16Of (c : Word32) : Nat := (c.extractLsb' 0 16).toNat
def a8Of (c : Word32) : Nat := (c.extractLsb' 16 8).toNat
def viewOf (c : Word32) : Nat := (c.extractLsb' 16 4).toNat
def fldOf (c : Word32) : Nat := (c.extractLsb' 12 4).toNat
def idxOf (c : Word32) : Nat := (c.extractLsb' 0 12).toNat

/-- The eleven formats of R92. -/
inductive Format where
  | r3 | r2 | rd | rs | rc | ri | sr | n | i | p | v
  deriving DecidableEq, Repr

/-- `mask`: a 1 in every bit that must equal the match word's bit (R92). -/
def maskOf : Format → Word32
  | .r3 => 0xFF000FFF
  | .r2 => 0xFF00FFFF
  | .rd => 0xFF0FFFFF
  | .rs => 0xFFF0FFFF
  | .rc => 0xFFF00FFF
  | .ri => 0xFF000000
  | .sr => 0xFF0F0000
  | .n => 0xFFFFFFFF
  | .i => 0xFFFF0000
  | .p => 0xFF000000
  | .v => 0xFFF00000

/-- `match = op << 24`, in every format (R92). -/
def matchOf (op : Nat) : Word32 := BitVec.ofNat 32 op <<< 24

/-- A row of the opcode map: its format, and the command with its fields taken from the word. -/
structure Row where
  format : Format
  command : Instr
  deriving DecidableEq, Repr

/-- The opcode map of R94, applied to the word `c` whose opcode is `op`. -/
def opcodeRow (op : Nat) (c : Word32) : Option Row :=
  match op with
  | 0x10 => some ⟨.rd, .wld (rdOf c)⟩
  | 0x11 => some ⟨.rd, .wldu (rdOf c)⟩
  | 0x12 => some ⟨.rs, .wrd (raOf c)⟩
  | 0x13 => some ⟨.r2, .wmov (rdOf c) (raOf c)⟩
  | 0x14 => some ⟨.rs, .wcvt8 (raOf c)⟩
  | 0x15 => some ⟨.rs, .wcvt16 (raOf c)⟩
  | 0x16 => some ⟨.rs, .wcvt32 (raOf c)⟩
  | 0x17 => some ⟨.rs, .wcvt64 (raOf c)⟩
  | 0x18 => some ⟨.r3, .wadd (rdOf c) (raOf c) (rbOf c)⟩
  | 0x19 => some ⟨.r3, .wsub (rdOf c) (raOf c) (rbOf c)⟩
  | 0x1A => some ⟨.r3, .wmul (rdOf c) (raOf c) (rbOf c)⟩
  | 0x1B => some ⟨.r3, .wdiv (rdOf c) (raOf c) (rbOf c)⟩
  | 0x1C => some ⟨.r3, .wmod (rdOf c) (raOf c) (rbOf c)⟩
  | 0x1D => some ⟨.r2, .winc (rdOf c) (raOf c)⟩
  | 0x1E => some ⟨.r2, .wdec (rdOf c) (raOf c)⟩
  | 0x1F => some ⟨.rc, .wcmp (raOf c) (rbOf c)⟩
  | 0x20 => some ⟨.r3, .wand (rdOf c) (raOf c) (rbOf c)⟩
  | 0x21 => some ⟨.r3, .wor (rdOf c) (raOf c) (rbOf c)⟩
  | 0x22 => some ⟨.r3, .wxor (rdOf c) (raOf c) (rbOf c)⟩
  | 0x23 => some ⟨.r2, .wnot (rdOf c) (raOf c)⟩
  | 0x24 => some ⟨.r3, .wshl (rdOf c) (raOf c) (rbOf c)⟩
  | 0x25 => some ⟨.r3, .wshr (rdOf c) (raOf c) (rbOf c)⟩
  | 0x26 => some ⟨.ri, .wshli (rdOf c) (raOf c) (imm16Of c)⟩
  | 0x27 => some ⟨.ri, .wshri (rdOf c) (raOf c) (imm16Of c)⟩
  | 0x30 => some ⟨.n, .crcinit⟩
  | 0x31 => some ⟨.i, .crcpb (imm16Of c)⟩
  | 0x32 => some ⟨.p, .crcpr (a8Of c) (imm16Of c)⟩
  | 0x33 => some ⟨.n, .crcpk⟩
  | 0x34 => some ⟨.n, .crcrd⟩
  | 0x40 => some ⟨.i, .fnew (imm16Of c)⟩
  | 0x41 => some ⟨.i, .fchk (imm16Of c)⟩
  | 0x42 => some ⟨.v, .fget (viewOf c) (fldOf c) (idxOf c)⟩
  | 0x43 => some ⟨.v, .fset (viewOf c) (fldOf c) (idxOf c)⟩
  | 0x44 => some ⟨.n, .fval⟩
  | 0x45 => some ⟨.n, .fisv⟩
  | 0x50 => some ⟨.i, .pbw (imm16Of c)⟩
  | 0x51 => some ⟨.i, .pbr (imm16Of c)⟩
  | 0x52 => some ⟨.i, .lblw (imm16Of c)⟩
  | 0x53 => some ⟨.i, .lblr (imm16Of c)⟩
  | 0x60 => some ⟨.n, .binit⟩
  | 0x61 => some ⟨.n, .bwhead⟩
  | 0x62 => some ⟨.rc, .bwheadx (raOf c) (rbOf c)⟩
  | 0x63 => some ⟨.i, .bwdata (imm16Of c)⟩
  | 0x64 => some ⟨.n, .bwcont⟩
  | 0x65 => some ⟨.n, .bwfin⟩
  | 0x70 => some ⟨.n, .linit⟩
  | 0x71 => some ⟨.n, .lnext⟩
  | 0x72 => some ⟨.i, .lgdata (imm16Of c)⟩
  | 0x73 => some ⟨.n, .lchk⟩
  | 0x74 => some ⟨.n, .lgetf⟩
  | 0x75 => some ⟨.n, .lglbl⟩
  | 0x80 => some ⟨.sr, .srd (rdOf c) (imm16Of c)⟩
  | _ => none

/-- The decoder of R96, total on 32-bit words. Operand ranges are not part of it (R109). -/
def decode (c : Word32) : Except Illegal Instr :=
  match opcodeRow (opOf c) c with
  | none => .error .unassignedOpcode
  | some row => if c &&& maskOf row.format = matchOf (opOf c) then .ok row.command else .error .mustBeZeroBit

/-- The host's question: the command the decoder reads from a table word.  One command word has 32 bits and there is
no second word (R90). -/
def decodeTableWord (nbits w : Nat) : Option Instr :=
  match decode (BitVec.ofNat 32 (w % 2 ^ nbits)) with
  | .ok i => some i
  | .error _ => none

/-! The encoder: the pictures of R92, bit 31 leftmost. -/

/-- A register number as its 4-bit field. -/
def regField (r : Reg) : BitVec 4 := BitVec.ofNat 4 r.val

def wordR3 (op : BitVec 8) (rd ra rb : Reg) : Word32 := op ++ regField rd ++ regField ra ++ regField rb ++ 0#12
def wordR2 (op : BitVec 8) (rd ra : Reg) : Word32 := op ++ regField rd ++ regField ra ++ 0#16
def wordRD (op : BitVec 8) (rd : Reg) : Word32 := op ++ regField rd ++ 0#20
def wordRS (op : BitVec 8) (ra : Reg) : Word32 := op ++ 0#4 ++ regField ra ++ 0#16
def wordRC (op : BitVec 8) (ra rb : Reg) : Word32 := op ++ 0#4 ++ regField ra ++ regField rb ++ 0#12
def wordRI (op : BitVec 8) (rd ra : Reg) (imm16 : Nat) : Word32 :=
  op ++ regField rd ++ regField ra ++ BitVec.ofNat 16 imm16
def wordSR (op : BitVec 8) (rd : Reg) (imm16 : Nat) : Word32 := op ++ regField rd ++ 0#4 ++ BitVec.ofNat 16 imm16
def wordN (op : BitVec 8) : Word32 := op ++ 0#24
def wordI (op : BitVec 8) (imm16 : Nat) : Word32 := op ++ 0#8 ++ BitVec.ofNat 16 imm16
def wordP (op : BitVec 8) (a8 imm16 : Nat) : Word32 := op ++ BitVec.ofNat 8 a8 ++ BitVec.ofNat 16 imm16
def wordV (op : BitVec 8) (view fld idx : Nat) : Word32 :=
  op ++ 0#4 ++ BitVec.ofNat 4 view ++ BitVec.ofNat 4 fld ++ BitVec.ofNat 12 idx

/-- The command word of an instruction (R92, R94).  On a well-formed instruction no bit of a field is lost. -/
def encode : Instr → Word32
  | .wld rd => wordRD 0x10 rd
  | .wldu rd => wordRD 0x11 rd
  | .wrd ra => wordRS 0x12 ra
  | .wmov rd ra => wordR2 0x13 rd ra
  | .wcvt8 ra => wordRS 0x14 ra
  | .wcvt16 ra => wordRS 0x15 ra
  | .wcvt32 ra => wordRS 0x16 ra
  | .wcvt64 ra => wordRS 0x17 ra
  | .wadd rd ra rb => wordR3 0x18 rd ra rb
  | .wsub rd ra rb => wordR3 0x19 rd ra rb
  | .wmul rd ra rb => wordR3 0x1A rd ra rb
  | .wdiv rd ra rb => wordR3 0x1B rd ra rb
  | .wmod rd ra rb => wordR3 0x1C rd ra rb
  | .winc rd ra => wordR2 0x1D rd ra
  | .wdec rd ra => wordR2 0x1E rd ra
  | .wcmp ra rb => wordRC 0x1F ra rb
  | .wand rd ra rb => wordR3 0x20 rd ra rb
  | .wor rd ra rb => wordR3 0x21 rd ra rb
  | .wxor rd ra rb => wordR3 0x22 rd ra rb
  | .wnot rd ra => wordR2 0x23 rd ra
  | .wshl rd ra rb => wordR3 0x24 rd ra rb
  | .wshr rd ra rb => wordR3 0x25 rd ra rb
  | .wshli rd ra imm16 => wordRI 0x26 rd ra imm16
  | .wshri rd ra imm16 => wordRI 0x27 rd ra imm16
  | .crcinit => wordN 0x30
  | .crcpb imm16 => wordI 0x31 imm16
  | .crcpr off len => wordP 0x32 off len
  | .crcpk => wordN 0x33
  | .crcrd => wordN 0x34
  | .fnew kind => wordI 0x40 kind
  | .fchk kind => wordI 0x41 kind
  | .fget view fld idx => wordV 0x42 view fld idx
  | .fset view fld idx => wordV 0x43 view fld idx
  | .fval => wordN 0x44
  | .fisv => wordN 0x45
  | .pbw idx => wordI 0x50 idx
  | .pbr idx => wordI 0x51 idx
  | .lblw half => wordI 0x52 half
  | .lblr half => wordI 0x53 half
  | .binit => wordN 0x60
  | .bwhead => wordN 0x61
  | .bwheadx ra rb => wordRC 0x62 ra rb
  | .bwdata size => wordI 0x63 size
  | .bwcont => wordN 0x64
  | .bwfin => wordN 0x65
  | .linit => wordN 0x70
  | .lnext => wordN 0x71
  | .lgdata limit => wordI 0x72 limit
  | .lchk => wordN 0x73
  | .lgetf => wordN 0x74
  | .lglbl => wordN 0x75
  | .srd rd sreg => wordSR 0x80 rd sreg

end Sys2Proof
end

