-- ==== Sys2Proof/Machine/State.lean ====
section
/-! DEFINITION. The machine's state as plain data: the unit's record of spec/10_state.md R20, whole, the operand bus of
the command in progress (spec/00_scope.md R10), and the host agent's side of the ports (R8; spec/20_memory.md R76 to
R81).  Reset is R37 and spec/70_reset_and_hazards.md R285. -/

namespace Sys2Proof.Machine

/-- The seven statuses of R260.  Codes `0x07` to `0xFF` are never produced: there is no constructor for them. -/
inductive Status where
  | ok
  | typeMismatch
  | illegalCommand
  | illegalOperand
  | divByZero
  | faulted
  | noVerdict
  deriving DecidableEq, Repr

/-- The answer to one command: the status and the result bus (R10). -/
structure Response where
  status : Status
  rdata : Wide
  deriving DecidableEq, Repr

/-- What the host does next.  `command` presents a command word with its operand bus (R10); `seek` moves the reference
sink's cursor (R79) and `reset` asserts the reset input (R285), both between commands only. -/
inductive HostAction where
  | command (cmd : Word32) (wdata : Wide)
  | seek (pos : Nat)
  | reset
  deriving DecidableEq, Repr

/-- The bytes of the host's reference sink (R79), as (offset, byte) pairs with offsets strictly rising.  An offset that
is not listed holds no byte. -/
structure Memory where
  cells : List Host.Cell
  deriving DecidableEq, Repr

/-- The canonical form: offsets strictly rise.  An unlisted offset reads as no byte at all, so no entry can equal what
an unlisted offset reads as. -/
abbrev Memory.wf (m : Memory) : Prop := (m.cells.map Prod.fst).Pairwise (· < ·)

/-- The host agent (R8): what it will still do, what its two stream ports will answer, and what it has received. -/
structure HostSide where
  /-- The host's remaining actions, first one first (R16, R23: the order of commands is the host's). -/
  actions : List HostAction
  /-- The answers to the coming samplings of `env.tx_ok` (R77).  When they run out the sink is ready (R79). -/
  txAnswers : List Bool
  /-- The answers to the coming `env.rx_next` requests; `none` is NoFrame (R80).  When they run out: NoFrame (R81). -/
  rxAnswers : List (Option Frame)
  /-- Every frame the host accepted on the TX port, oldest first (R77, R83). -/
  txFrames : List Frame
  /-- The reference sink's bytes, `tx_mem` (R79). -/
  sink : Memory
  /-- The reference sink's cursor, `tx_pos` (R79). -/
  sinkPos : Nat
  /-- Every response the host received, oldest first (R10, R298). -/
  responses : List Response
  deriving DecidableEq, Repr

/-- The Builder's running-state record (R20, R32). -/
structure Builder where
  label : Label
  index : Wide
  total : Wide
  wroteHead : Bool
  wroteFinish : Bool
  deriving DecidableEq, Repr

/-- The Loader's running-state record (R20, R32, R36); its current frame is `State.lf`. -/
structure Loader where
  count : Wide
  index : Wide
  size : Wide
  dindex : Wide
  label : Label
  readhead : Bool
  readfinf : Bool
  fault : Bool
  started : Bool
  deriving DecidableEq, Repr

/-- The whole state.  The first ten fields are the unit's, exactly the record of R20; `wdata` is the operand bus of the
command in progress; `host` is the other agent. -/
structure State where
  /-- The wide registers `w0` to `w15` (R21). -/
  w : Vector Wide 16
  /-- `CRC.acc`, the accumulator before the output XOR (R24). -/
  crcAcc : Word32
  /-- `FB`, the host's scratch frame (R27). -/
  fb : Frame
  /-- `LF`, the Loader's current frame (R28). -/
  lf : Frame
  /-- `PB`, the payload staging buffer (R29). -/
  pb : Payload
  /-- `LBL`, the label staging buffer (R30). -/
  lbl : Label
  /-- The Builder's record, `B.*` (R32). -/
  b : Builder
  /-- The Loader's record, `L.*` (R32, R36). -/
  l : Loader
  /-- The `FAULTED` latch (R266). -/
  faulted : Bool
  /-- The sticky `ILL` mark (R262, R263). -/
  ill : Bool
  /-- The operand bus `wdata` of the command in progress (R10). The model's own field. -/
  wdata : Wide
  /-- The host agent's side of the ports. The model's own field. -/
  host : HostSide
  deriving DecidableEq, Repr

/-- Why the machine stops with a fault: never.  Every exceptional condition of this hardware is a status in a response,
after which the unit takes the next command (R260, R270, R271), so this closed type has no constructor.  Safe: a step
cannot end here. -/
inductive Fault
  deriving DecidableEq, Repr

/-- Why an instruction has no meaning. -/
inductive Refusal where
  /-- Raised only by an arm of `exec` that has no meaning yet; no arm is left in that form.  Safe: it stops. -/
  | notModelled (mnemonic : String)
  deriving DecidableEq, Repr

/-- The Builder after reset: state Empty (R37, R38). -/
def Builder.reset : Builder where
  label := zeroBuffer 32
  index := 0
  total := 0
  wroteHead := false
  wroteFinish := false

/-- The Loader after reset: state Start (R37, R39). -/
def Loader.reset : Loader where
  count := 0
  index := 0
  size := 0
  dindex := 0
  label := zeroBuffer 32
  readhead := false
  readfinf := false
  fault := false
  started := false

/-- The host before it has done anything: no action placed, both streams at their reference answers, an empty sink with
its cursor at 0 (R79, R81), nothing received. -/
def HostSide.initial : HostSide where
  actions := []
  txAnswers := []
  rxAnswers := []
  txFrames := []
  sink := ⟨[]⟩
  sinkPos := 0
  responses := []

/-- The machine right after reset (R37, R285), before the host has done anything. -/
def State.reset : State where
  w := Vector.replicate 16 0
  crcAcc := cfg.crcInit
  fb := zeroBuffer 256
  lf := zeroBuffer 256
  pb := zeroBuffer 240
  lbl := zeroBuffer 32
  b := Builder.reset
  l := Loader.reset
  faulted := false
  ill := false
  wdata := 0
  host := HostSide.initial

end Sys2Proof.Machine
end

