-- ==== Sys2Proof/Machine/Bytes.lean ====
section
/-! DEFINITION. The named operations over byte buffers and their byte order: `MemRead`, `MemWrite`, bus lanes and byte
ranges (spec/00_scope.md R13; spec/20_memory.md R63 to R66). -/

namespace Sys2Proof.Machine

/-- The byte of a buffer at an offset.  Every use is inside the bounds (R63, R67); outside them it reads zero. -/
def byteAt {n : Nat} (buf : Buffer n) (i : Nat) : Byte := buf.toList.getD i 0

/-- The bytes `buf[off .. off+len)`, in ascending offset order (R12, R65). -/
def readBytes {n : Nat} (buf : Buffer n) (off len : Nat) : List Byte := (buf.toList.drop off).take len

/-- Lay a byte string over a list of bytes, from position `off` on.  What would stand past the end is dropped. -/
def overlay : List Byte → Nat → List Byte → List Byte
  | [], _, _ => []
  | b :: rest, off + 1, bs => b :: overlay rest off bs
  | b :: rest, 0, [] => b :: rest
  | _ :: rest, 0, v :: vs => v :: overlay rest 0 vs

/-- Laying bytes over a list keeps its length. -/
theorem overlay_length (l : List Byte) (off : Nat) (bs : List Byte) : (overlay l off bs).length = l.length := by
  fun_induction overlay l off bs <;> simp_all

/-- `buf[off .. off+bs.length) <- bs`; no other byte changes (R63). -/
def writeBytes {n : Nat} (buf : Buffer n) (off : Nat) (bs : List Byte) : Buffer n :=
  ⟨(overlay buf.toList off bs).toArray, by simp [overlay_length]⟩

/-- The buffer that holds a byte string, with zeros after it. -/
def bufferOf (n : Nat) (bs : List Byte) : Buffer n := writeBytes (zeroBuffer n) 0 bs

/-- The unsigned integer whose bytes are `bs`, least significant first (R64). -/
def natOfBytes : List Byte → Nat
  | [] => 0
  | b :: bs => b.toNat + 256 * natOfBytes bs

/-- The low `n` bytes of `v`, least significant first (R64). -/
def bytesOfNat : Nat → Nat → List Byte
  | 0, _ => []
  | n + 1, v => BitVec.ofNat 8 v :: bytesOfNat n (v / 256)

/-- `MemRead(buf, off, n)` (R63): the sum over `k < n` of `buf[off+k] * 256^k`. -/
def memRead {m : Nat} (buf : Buffer m) (off n : Nat) : Nat := natOfBytes (readBytes buf off n)

/-- `MemWrite(buf, off, n, v)` (R63): the low `8n` bits of `v`, little-endian, at `off`; no other byte changes. -/
def memWrite {m : Nat} (buf : Buffer m) (off n v : Nat) : Buffer m := writeBytes buf off (bytesOfNat n v)

/-- The bytes of a 128-bit bus, lane 0 first (R66). -/
def lanes (v : Wide) : List Byte := bytesOfNat 16 v.toNat

/-! ## The reference sink's bytes (R79) -/

/-- The byte of the sink at an offset, if the sink holds one there. -/
def Memory.read (m : Memory) (a : Nat) : Option Byte := (m.cells.find? fun c => c.1 == a).map Prod.snd

/-- A byte string as cells of ascending offsets from `a`. -/
def cellsFrom (a : Nat) : List Byte → List Host.Cell
  | [] => []
  | v :: vs => (a, v) :: cellsFrom (a + 1) vs

/-- Store a byte string in the sink, ascending from `a`: it extends the array where needed and overwrites elsewhere. -/
def Memory.store (m : Memory) (a : Nat) (bs : List Byte) : Memory where
  cells := m.cells.filter (fun c => decide (c.1 < a)) ++ cellsFrom a bs ++
    m.cells.filter (fun c => decide (a + bs.length ≤ c.1))

end Sys2Proof.Machine
end

