-- ==== Sys2Proof/Machine/Frames.lean ====
section
/-! DEFINITION. The frame record: its fixed fields, its checksum and its validity (spec/20_memory.md R60, R61, R72;
spec/42_frame_buffer.md R175, R184, R185). -/

namespace Sys2Proof.Machine

/-- The `sequence` field (R60). -/
def frameSequence (f : Frame) : BitVec 64 := BitVec.ofNat 64 (memRead f 0 8)

/-- The `type_tag` field (R60, R175). -/
def frameTag (f : Frame) : Word32 := BitVec.ofNat 32 (memRead f 8 4)

/-- The stored `checksum` field (R60). -/
def frameChecksum (f : Frame) : Word32 := BitVec.ofNat 32 (memRead f cfg.cksumOff 4)

/-- The wide value at a frame offset: 16 bytes, little-endian (R61, R64). -/
def wideAt (f : Frame) (off : Nat) : Wide := BitVec.ofNat 128 (memRead f off 16)

/-- The 32 bytes `f[off .. off+32)` as a label. -/
def labelAt (f : Frame) (off : Nat) : Label := bufferOf 32 (readBytes f off 32)

/-- The checksum of a frame's first 252 bytes (R72). -/
def computedChecksum (f : Frame) : Word32 := crc32 (readBytes f 0 cfg.cksumOff)

/-- `validate(frame)`: compute the checksum and write it into the frame (R184). -/
def sealFrame (f : Frame) : Frame := memWrite f cfg.cksumOff 4 (computedChecksum f).toNat

/-- `is_valid(frame)`: recompute and compare, writing nothing (R185). -/
def frameValid (f : Frame) : Bool := computedChecksum f == frameChecksum f

/-- The all-zero frame that every construction starts from. -/
def blankFrame : Frame := zeroBuffer 256

/-- A Head frame (R206): sequence 0, the format version, the two totals and the label, sealed. -/
def headFrame (label : Label) (count size : Wide) : Frame :=
  let f := memWrite blankFrame 0 8 0
  let f := memWrite f 8 4 cfg.tagHead.toNat
  let f := memWrite f 12 4 cfg.formatVersion.toNat
  let f := memWrite f 16 16 count.toNat
  let f := writeBytes f 32 (readBytes label 0 32)
  let f := memWrite f 64 16 size.toNat
  sealFrame f

/-- A Data frame (R207): the low 64 bits of the index, and the first `size` payload bytes with zeros after, sealed. -/
def dataFrame (index : Wide) (payload : Payload) (size : Nat) : Frame :=
  let f := memWrite blankFrame 0 8 index.toNat
  let f := memWrite f 8 4 cfg.tagData.toNat
  let f := writeBytes f 12 (readBytes payload 0 size)
  sealFrame f

/-- A Continuation frame (R208): the whole index and the label, sealed. -/
def contFrame (index : Wide) (label : Label) : Frame :=
  let f := memWrite blankFrame 0 8 index.toNat
  let f := memWrite f 8 4 cfg.tagCont.toNat
  let f := memWrite f 16 16 index.toNat
  let f := writeBytes f 32 (readBytes label 0 32)
  sealFrame f

/-- A Finish frame (R209): count `index + 1` (wrapping), the running total, the hash left zero, sealed. -/
def finishFrame (index total : Wide) : Frame :=
  let f := memWrite blankFrame 0 8 index.toNat
  let f := memWrite f 8 4 cfg.tagFinf.toNat
  let f := memWrite f 16 16 (index + 1).toNat
  let f := memWrite f 64 16 total.toNat
  sealFrame f

end Sys2Proof.Machine
end

