-- ==== Sys2Proof/Machine/Ops.lean ====
section
/-! DEFINITION. The named operations over the state: register access, field updates, the response, raising an
exceptional condition (the ONE operation of spec/60_exceptions.md R260 to R271), the stream operations `emit` and
`recv` (spec/20_memory.md R77, R80), and the reset of the unit (spec/70_reset_and_hazards.md R285). -/

namespace Sys2Proof.Machine

/-! ## Registers and fields -/

/-- `w[i]`, read (R13). No register is hardwired (R22). -/
def State.reg (s : State) (r : Reg) : Wide := s.w[r]

/-- `w[i] <- v` (R13). -/
def State.setReg (s : State) (r : Reg) (v : Wide) : State := { s with w := s.w.set r v }

/-- `CRC.acc <- v`. -/
def State.setCrc (s : State) (v : Word32) : State := { s with crcAcc := v }

/-- `FB <- f`. -/
def State.setFb (s : State) (f : Frame) : State := { s with fb := f }

/-- `LF <- f`. -/
def State.setLf (s : State) (f : Frame) : State := { s with lf := f }

/-- `PB <- p`. -/
def State.setPb (s : State) (p : Payload) : State := { s with pb := p }

/-- `LBL <- v`. -/
def State.setLbl (s : State) (v : Label) : State := { s with lbl := v }

/-- Replace the Builder's record. -/
def State.setB (s : State) (b : Builder) : State := { s with b := b }

/-- Replace the Loader's record. -/
def State.setL (s : State) (l : Loader) : State := { s with l := l }

/-- `FAULTED <- 1` (R266). -/
def State.latchFault (s : State) : State := { s with faulted := true }

/-- `ILL <- 1` (R262, R263). -/
def State.markIll (s : State) : State := { s with ill := true }

/-- Drive the operand bus (R10). -/
def State.setWdata (s : State) (v : Wide) : State := { s with wdata := v }

/-- Replace the host's side. -/
def State.setHost (s : State) (h : HostSide) : State := { s with host := h }

/-! ## Responses -/

/-- The unit answers the host with a status and a result (R10). -/
def State.answer (s : State) (st : Status) (v : Wide) : State :=
  s.setHost { s.host with responses := s.host.responses ++ [⟨st, v⟩] }

/-- `respond(v)`: the command ends with status OK and result `v` (R13). -/
def State.respond (s : State) (v : Wide) : State := s.answer .ok v

/-! ## Exceptional conditions -/

/-- The conditions a command can raise (R260): the statuses other than OK. -/
inductive Condition where
  | typeMismatch
  | illegalCommand
  | illegalOperand
  | divByZero
  | faulted
  | noVerdict
  deriving DecidableEq, Repr

/-- The status a condition answers with (R260). -/
def conditionStatus : Condition → Status
  | .typeMismatch => .typeMismatch
  | .illegalCommand => .illegalCommand
  | .illegalOperand => .illegalOperand
  | .divByZero => .divByZero
  | .faulted => .faulted
  | .noVerdict => .noVerdict

/-- What raising a condition writes before the response, and nothing else (R270): `ILL` for the two refusals (R262,
R263), `FAULTED` for a zero divisor (R265), nothing for the others (R264, R266, R267). -/
def conditionMark (c : Condition) (s : State) : State :=
  match c with
  | .illegalCommand => s.markIll
  | .illegalOperand => s.markIll
  | .divByZero => s.latchFault
  | .typeMismatch => s
  | .faulted => s
  | .noVerdict => s

/-- `raise c` (R13, R260, R270): the mark of the condition, and the response with its status and result 0.  Nothing is
saved, no mode changes, nothing is jumped to.  There is no return operation beside it: R271, nothing to restore. -/
def raise (c : Condition) (s : State) : State := (conditionMark c s).answer (conditionStatus c) 0

/-- Every command word first meets the `FAULTED` latch (R266, R268 check 1): while it is set the answer is FAULTED and
nothing changes; otherwise the command runs to completion in one step (R9). -/
def command (s : State) (run : State → State) : Host.Outcome State Fault Refusal :=
  .next (if s.faulted then raise .faulted s else run s)

/-- A command whose operand range check (R109, R268 check 3) is `legal`: out of range it is refused before any other
effect. -/
def checked (legal : Bool) (s : State) (run : State → State) : Host.Outcome State Fault Refusal :=
  command s fun s => if legal then run s else raise .illegalOperand s

/-- A word that does not decode (R108, R262, R268 check 2). -/
def illegalWord (s : State) : Host.Outcome State Fault Refusal := command s (raise .illegalCommand)

/-! ## Stream ports -/

/-- The host takes a frame: the TX record grows, and the reference sink stores its 256 bytes at the cursor (R79). -/
def HostSide.accept (h : HostSide) (f : Frame) : HostSide :=
  { h with
    txFrames := h.txFrames ++ [f]
    sink := h.sink.store h.sinkPos f.toList
    sinkPos := h.sinkPos + 256 }

/-- The host's answer to one sampling of `env.tx_ok` (R77); ready when the given answers have run out (R79). -/
def HostSide.txReady (h : HostSide) : Bool := h.txAnswers.headD true

/-- `emit(F)` (R77): the pre-check is sampled once; the frame is handed over if it is 1 and dropped if it is 0. -/
def emit (f : Frame) (s : State) : State :=
  let h := { s.host with txAnswers := s.host.txAnswers.tail }
  if s.host.txReady then s.setHost (h.accept f) else s.setHost h

/-- What `emit` returns (R77): 1 when the frame was handed over. -/
def emitted (s : State) : Wide := if s.host.txReady then 1 else 0

/-- The host's answer to one request for a frame (R80); NoFrame when the given answers have run out (R81). -/
def rxAnswer (s : State) : Option Frame := s.host.rxAnswers.headD none

/-- `recv()` (R80): the request consumes the host's answer. -/
def recv (s : State) : State := s.setHost { s.host with rxAnswers := s.host.rxAnswers.tail }

/-! ## Host actions between commands -/

/-- The host moves its sink's cursor (R79). -/
def seekSink (pos : Nat) (s : State) : State := s.setHost { s.host with sinkPos := pos }

/-- The reset input (R285): every field of the unit goes to its reset value; the host's side is not the unit's. -/
def resetUnit (s : State) : State := { State.reset with wdata := s.wdata, host := s.host }

/-- The host's first pending action is taken off its list. -/
def dropAction (s : State) : State := s.setHost { s.host with actions := s.host.actions.tail }

end Sys2Proof.Machine
end

