-- ==== Sys2Proof/Machine/Flags.lean ====
section
/-! DEFINITION. Statuses as numbers, the STATUS word and the sequencer's flag conditions (spec/60_exceptions.md R260;
spec/10_state.md R34, R35; spec/43_builder.md R202).  The unit has no arithmetic condition codes (R35). -/

namespace Sys2Proof.Machine

/-- The 8-bit code of a status (R260). -/
def statusCode : Status → BitVec 8
  | .ok => 0x00
  | .typeMismatch => 0x01
  | .illegalCommand => 0x02
  | .illegalOperand => 0x03
  | .divByZero => 0x04
  | .faulted => 0x05
  | .noVerdict => 0x06

/-- A flag as one bit. -/
def flagBit (x : Bool) : BitVec 1 := BitVec.ofBool x

/-- `STATUS`, special register 0 (R34): ILL, FAULTED, LST, LFLT, LRF, LRH, BWF, BWH from bit 7 down to bit 0. -/
def statusWord (s : State) : BitVec 8 :=
  flagBit s.ill ++ flagBit s.faulted ++ flagBit s.l.started ++ flagBit s.l.fault ++
    flagBit s.l.readfinf ++ flagBit s.l.readhead ++ flagBit s.b.wroteFinish ++ flagBit s.b.wroteHead

/-- The guard of BWDATA, BWCONT and BWFIN (R202): a Head has been written and the Finish has not. -/
def builderOpen (b : Builder) : Bool := b.wroteHead && !b.wroteFinish

/-- A one-bit answer on the result bus (R203, R222, R185, R232). -/
def bitAnswer (x : Bool) : Wide := if x then 1 else 0

end Sys2Proof.Machine
end

