-- ==== Sys2Proof/Machine/Operands.lean ====
section
/-! DEFINITION. Operand forms: the kinds, the accessible fields, the immediate ranges and the special-register map
(spec/30_encoding.md R109; spec/42_frame_buffer.md R176, R177; spec/10_state.md R33). -/

namespace Sys2Proof.Machine

/-- A kind: the typed views of R176. -/
inductive Kind where
  | head
  | finf
  | data
  | cont
  deriving DecidableEq, Repr

/-- `tag_of(kind)` (R176). -/
def tagOf : Kind → Word32
  | .head => cfg.tagHead
  | .finf => cfg.tagFinf
  | .data => cfg.tagData
  | .cont => cfg.tagCont

/-- The kind a number names: 1 to 4, and no other (R109, R176). -/
def kindOf (n : Nat) : Option Kind :=
  match n with
  | 1 => some .head
  | 2 => some .finf
  | 3 => some .data
  | 4 => some .cont
  | _ => none

/-- `view_ok(kind)` on a frame (R176): its tag is the kind's tag, and nothing else is looked at. -/
def viewOk (k : Kind) (f : Frame) : Bool := frameTag f == tagOf k

/-- A row of the table of R177: the view's kind (none for RAW), the frame offset, and the number of bytes moved. -/
structure Field where
  view : Option Kind
  off : Nat
  bytes : Nat
  deriving DecidableEq, Repr

/-- A field that has the one index 0. -/
def single (v : Option Kind) (off bytes idx : Nat) : Option Field := if idx = 0 then some ⟨v, off, bytes⟩ else none

/-- A field of `count` chunks of 16 bytes from `base`. -/
def chunked (v : Option Kind) (base count idx : Nat) : Option Field :=
  if idx < count then some ⟨v, base + 16 * idx, 16⟩ else none

/-- The legal triples `(view, fld, idx)`, exactly the rows of R177. -/
def fieldOf (view fld idx : Nat) : Option Field :=
  match view, fld with
  | 0, 0 => single none 0 8 idx
  | 0, 1 => single none 8 4 idx
  | 0, 2 => chunked none 12 15 idx
  | 0, 3 => single none 252 4 idx
  | 1, 0 => single (some .head) 12 4 idx
  | 1, 1 => single (some .head) 16 16 idx
  | 1, 2 => chunked (some .head) 32 2 idx
  | 1, 3 => single (some .head) 64 16 idx
  | 2, 1 => single (some .finf) 16 16 idx
  | 2, 2 => chunked (some .finf) 32 2 idx
  | 2, 3 => single (some .finf) 64 16 idx
  | 3, 2 => chunked (some .data) 12 15 idx
  | 4, 1 => single (some .cont) 16 16 idx
  | 4, 2 => chunked (some .cont) 32 2 idx
  | _, _ => none

/-- A field may be accessed on a frame: RAW always, a typed view when the frame's tag is the view's (R176). -/
def fieldOpen (fd : Field) (f : Frame) : Bool :=
  match fd.view with
  | none => true
  | some k => viewOk k f

/-- CRCPB: one byte (R109). -/
def byteLegal (v : Nat) : Bool := decide (v ≤ 255)

/-- CRCPR: a range inside the frame buffer (R109). -/
def rangeLegal (off len : Nat) : Bool := decide (off + len ≤ 256)

/-- PBW, PBR: one of the fifteen chunks of PB (R109). -/
def chunkLegal (idx : Nat) : Bool := decide (idx ≤ 14)

/-- LBLW, LBLR: one of the two halves of LBL (R109). -/
def halfLegal (half : Nat) : Bool := decide (half ≤ 1)

/-- BWDATA, LGDATA: at most 240 bytes (R109). -/
def sizeLegal (size : Nat) : Bool := decide (size ≤ 240)

/-- The special registers, zero-extended to 128 bits (R33, R246).  Numbers above 7 name none. -/
def specialReg (s : State) (n : Nat) : Option Wide :=
  match n with
  | 0 => some ((statusWord s).setWidth 128)
  | 1 => some s.b.index
  | 2 => some s.b.total
  | 3 => some s.l.count
  | 4 => some s.l.index
  | 5 => some s.l.size
  | 6 => some s.l.dindex
  | 7 => some (cfg.supportedVersion.setWidth 128)
  | _ => none

end Sys2Proof.Machine
end

