-- ==== Sys2Proof/Machine/Wide.lean ====
section
/-! DEFINITION. The wide arithmetic unit: the operations on 128-bit values and the meanings of its 24 commands
(spec/40_wide_arithmetic.md R120 to R148).  Sources are read before the destination is written (R121), because a meaning
computes its result from the state before the write. -/

namespace Sys2Proof.Machine

/-! ## Operations on wide values -/

/-- Sum modulo `2^128` (R132). -/
def wideAdd (a b : Wide) : Wide := BitVec.ofNat 128 (a.toNat + b.toNat)

/-- Difference modulo `2^128`, the minuend first (R133). -/
def wideSub (a b : Wide) : Wide := BitVec.ofNat 128 (a.toNat + 2 ^ 128 - b.toNat)

/-- The low 128 bits of the product (R134). -/
def wideMul (a b : Wide) : Wide := BitVec.ofNat 128 (a.toNat * b.toNat)

/-- The exact floor quotient (R135, R148).  Its meaning calls it with a nonzero divisor only. -/
def wideDiv (a b : Wide) : Wide := BitVec.ofNat 128 (a.toNat / b.toNat)

/-- The remainder (R136).  Its meaning calls it with a nonzero divisor only. -/
def wideMod (a b : Wide) : Wide := BitVec.ofNat 128 (a.toNat % b.toNat)

/-- Increment (R137). -/
def wideInc (a : Wide) : Wide := wideAdd a 1

/-- Decrement (R138). -/
def wideDec (a : Wide) : Wide := wideSub a 1

/-- The comparison code: 0 equal, 1 less, 2 greater (R139). -/
def wideCmp (a b : Wide) : Wide := if a = b then 0 else if a.toNat < b.toNat then 1 else 2

/-- Logical left shift by an unbounded count (R144). -/
def wideShl (a : Wide) (n : Nat) : Wide := if n ≥ 128 then 0 else BitVec.ofNat 128 (a.toNat * 2 ^ n)

/-- Logical right shift by an unbounded count (R145). -/
def wideShr (a : Wide) (n : Nat) : Wide := if n ≥ 128 then 0 else BitVec.ofNat 128 (a.toNat / 2 ^ n)

/-- The low `n` bits, zero-extended (R128 to R131). -/
def lowBits (n : Nat) (a : Wide) : Wide := (a.setWidth n).setWidth 128

/-! ## Shared shapes -/

/-- A command that writes its destination once and answers 0. -/
def writeReg (rd : Reg) (v : State → Wide) (s : State) : Host.Outcome State Fault Refusal :=
  command s fun s => (s.setReg rd (v s)).respond 0

/-- A command that writes nothing and answers a value. -/
def answerValue (v : State → Wide) (s : State) : Host.Outcome State Fault Refusal := command s fun s => s.respond (v s)

/-- WDIV and WMOD: a zero divisor raises DivByZero and the destination is not written (R265). -/
def divideReg (f : Wide → Wide → Wide) (rd ra rb : Reg) (s : State) : Host.Outcome State Fault Refusal :=
  command s fun s =>
    if s.reg rb = 0 then raise .divByZero s else (s.setReg rd (f (s.reg ra) (s.reg rb))).respond 0

/-! ## Moves and conversions -/

/-- WLD (R124). -/
def execWld (rd : Reg) (s : State) : Host.Outcome State Fault Refusal := writeReg rd (fun s => s.wdata) s

/-- WLDU (R125): limb 0 from the bus, limb 1 cleared. -/
def execWldu (rd : Reg) (s : State) : Host.Outcome State Fault Refusal := writeReg rd (fun s => lowBits 64 s.wdata) s

/-- WRD (R126). -/
def execWrd (ra : Reg) (s : State) : Host.Outcome State Fault Refusal := answerValue (fun s => s.reg ra) s

/-- WMOV (R127). -/
def execWmov (rd ra : Reg) (s : State) : Host.Outcome State Fault Refusal := writeReg rd (fun s => s.reg ra) s

/-- WCVT8 (R128). -/
def execWcvt8 (ra : Reg) (s : State) : Host.Outcome State Fault Refusal := answerValue (fun s => lowBits 8 (s.reg ra)) s

/-- WCVT16 (R129). -/
def execWcvt16 (ra : Reg) (s : State) : Host.Outcome State Fault Refusal :=
  answerValue (fun s => lowBits 16 (s.reg ra)) s

/-- WCVT32 (R130). -/
def execWcvt32 (ra : Reg) (s : State) : Host.Outcome State Fault Refusal :=
  answerValue (fun s => lowBits 32 (s.reg ra)) s

/-- WCVT64 (R131). -/
def execWcvt64 (ra : Reg) (s : State) : Host.Outcome State Fault Refusal :=
  answerValue (fun s => lowBits 64 (s.reg ra)) s

/-! ## Arithmetic -/

/-- WADD (R132). -/
def execWadd (rd ra rb : Reg) (s : State) : Host.Outcome State Fault Refusal :=
  writeReg rd (fun s => wideAdd (s.reg ra) (s.reg rb)) s

/-- WSUB (R133). -/
def execWsub (rd ra rb : Reg) (s : State) : Host.Outcome State Fault Refusal :=
  writeReg rd (fun s => wideSub (s.reg ra) (s.reg rb)) s

/-- WMUL (R134). -/
def execWmul (rd ra rb : Reg) (s : State) : Host.Outcome State Fault Refusal :=
  writeReg rd (fun s => wideMul (s.reg ra) (s.reg rb)) s

/-- WDIV (R135). -/
def execWdiv (rd ra rb : Reg) (s : State) : Host.Outcome State Fault Refusal := divideReg wideDiv rd ra rb s

/-- WMOD (R136). -/
def execWmod (rd ra rb : Reg) (s : State) : Host.Outcome State Fault Refusal := divideReg wideMod rd ra rb s

/-- WINC (R137). -/
def execWinc (rd ra : Reg) (s : State) : Host.Outcome State Fault Refusal := writeReg rd (fun s => wideInc (s.reg ra)) s

/-- WDEC (R138). -/
def execWdec (rd ra : Reg) (s : State) : Host.Outcome State Fault Refusal := writeReg rd (fun s => wideDec (s.reg ra)) s

/-- WCMP (R139). -/
def execWcmp (ra rb : Reg) (s : State) : Host.Outcome State Fault Refusal :=
  answerValue (fun s => wideCmp (s.reg ra) (s.reg rb)) s

/-! ## Bitwise operations -/

/-- WAND (R140). -/
def execWand (rd ra rb : Reg) (s : State) : Host.Outcome State Fault Refusal :=
  writeReg rd (fun s => s.reg ra &&& s.reg rb) s

/-- WOR (R141). -/
def execWor (rd ra rb : Reg) (s : State) : Host.Outcome State Fault Refusal :=
  writeReg rd (fun s => s.reg ra ||| s.reg rb) s

/-- WXOR (R142). -/
def execWxor (rd ra rb : Reg) (s : State) : Host.Outcome State Fault Refusal :=
  writeReg rd (fun s => s.reg ra ^^^ s.reg rb) s

/-- WNOT (R143). -/
def execWnot (rd ra : Reg) (s : State) : Host.Outcome State Fault Refusal := writeReg rd (fun s => ~~~ s.reg ra) s

/-! ## Shifts -/

/-- WSHL (R144): the whole 128-bit register is the count. -/
def execWshl (rd ra rb : Reg) (s : State) : Host.Outcome State Fault Refusal :=
  writeReg rd (fun s => wideShl (s.reg ra) (s.reg rb).toNat) s

/-- WSHR (R145): the whole 128-bit register is the count. -/
def execWshr (rd ra rb : Reg) (s : State) : Host.Outcome State Fault Refusal :=
  writeReg rd (fun s => wideShr (s.reg ra) (s.reg rb).toNat) s

/-- WSHLI (R146). -/
def execWshli (rd ra : Reg) (imm16 : Nat) (s : State) : Host.Outcome State Fault Refusal :=
  writeReg rd (fun s => wideShl (s.reg ra) imm16) s

/-- WSHRI (R147). -/
def execWshri (rd ra : Reg) (imm16 : Nat) (s : State) : Host.Outcome State Fault Refusal :=
  writeReg rd (fun s => wideShr (s.reg ra) imm16) s

end Sys2Proof.Machine
end

