-- ==== Sys2Proof/Machine/Builder.lean ====
section
/-! DEFINITION. The six Builder commands (spec/43_builder.md R200 to R209).  A frame-writing command builds a transient
frame from the state before it, emits it at most once, does its bookkeeping whether or not the frame was taken (R78),
and answers whether it was (R203). -/

namespace Sys2Proof.Machine

/-- Emit a frame, then put the Builder's new record in place, then answer what `emit` returned (R200, R203). -/
def writeFrame (f : Frame) (b : Builder) (s : State) : State := ((emit f s).setB b).respond (emitted s)

/-- The guard of R202: with no Head written or the Finish written, a guarded no-op that answers 0. -/
def guarded (run : State → State) (s : State) : State := if builderOpen s.b then run s else s.respond 0

/-- The Builder's record after a Head (R206): the index advances unless the Finish is written. -/
def afterHead (b : Builder) : Builder :=
  { b with wroteHead := true, index := if b.wroteFinish then b.index else wideInc b.index }

/-- `write_head(count, size)`, the procedure both Head commands share (R206). -/
def writeHead (count size : Wide) (s : State) : State := writeFrame (headFrame s.b.label count size) (afterHead s.b) s

/-- BINIT (R201): construct the Builder, its label from LBL. -/
def execBinit (s : State) : Host.Outcome State Fault Refusal :=
  command s fun s => (s.setB { Builder.reset with label := s.lbl }).respond 0

/-- BWHEAD (R205): a provisional Head with the running counts. -/
def execBwhead (s : State) : Host.Outcome State Fault Refusal := command s fun s => writeHead s.b.index s.b.total s

/-- BWHEADX (R206): a Head with explicit totals. -/
def execBwheadx (ra rb : Reg) (s : State) : Host.Outcome State Fault Refusal :=
  command s fun s => writeHead (s.reg ra) (s.reg rb) s

/-- BWDATA (R207). -/
def execBwdata (size : Nat) (s : State) : Host.Outcome State Fault Refusal :=
  checked (sizeLegal size) s <| guarded fun s =>
    writeFrame (dataFrame s.b.index s.pb size)
      { s.b with index := wideInc s.b.index, total := wideAdd s.b.total (BitVec.ofNat 128 size) } s

/-- BWCONT (R208). -/
def execBwcont (s : State) : Host.Outcome State Fault Refusal :=
  command s <| guarded fun s =>
    writeFrame (contFrame s.b.index s.b.label) { s.b with index := wideInc s.b.index } s

/-- BWFIN (R209): the index is not advanced. -/
def execBwfin (s : State) : Host.Outcome State Fault Refusal :=
  command s <| guarded fun s => writeFrame (finishFrame s.b.index s.b.total) { s.b with wroteFinish := true } s

end Sys2Proof.Machine
end

