-- ==== Sys2Proof/Machine/Crc.lean ====
section
/-! DEFINITION. The five CRC commands (spec/41_crc32.md R164 to R169).  None writes anything but `CRC.acc`. -/

namespace Sys2Proof.Machine

/-- A push: the accumulator takes a byte string, first byte first, and the answer is 0 (R169). -/
def pushCrc (bs : List Byte) (s : State) : State := (s.setCrc (crcPush s.crcAcc bs)).respond 0

/-- CRCINIT (R164). -/
def execCrcinit (s : State) : Host.Outcome State Fault Refusal := command s fun s => (s.setCrc cfg.crcInit).respond 0

/-- CRCPB (R165). -/
def execCrcpb (imm16 : Nat) (s : State) : Host.Outcome State Fault Refusal :=
  checked (byteLegal imm16) s (pushCrc [BitVec.ofNat 8 imm16])

/-- CRCPR (R166): ascending offsets of FB. -/
def execCrcpr (off len : Nat) (s : State) : Host.Outcome State Fault Refusal :=
  checked (rangeLegal off len) s fun s => pushCrc (readBytes s.fb off len) s

/-- CRCPK (R167): the sixteen lanes of the operand bus, lane 0 first. -/
def execCrcpk (s : State) : Host.Outcome State Fault Refusal := command s fun s => pushCrc (lanes s.wdata) s

/-- CRCRD (R168): the digest, consuming nothing. -/
def execCrcrd (s : State) : Host.Outcome State Fault Refusal :=
  command s fun s => s.respond ((s.crcAcc ^^^ cfg.crcXorOut).setWidth 128)

end Sys2Proof.Machine
end

