-- ==== Sys2Proof/Machine/FrameBuffer.lean ====
section
/-! DEFINITION. The six frame-buffer commands (spec/42_frame_buffer.md R178 to R185).  They change nothing but `FB`. -/

namespace Sys2Proof.Machine

/-- A command with a kind operand: a number that names no kind is out of range (R109). -/
def withKind (kind : Nat) (s : State) (run : Kind → State → State) : Host.Outcome State Fault Refusal :=
  command s fun s =>
    match kindOf kind with
    | none => raise .illegalOperand s
    | some k => run k s

/-- A field access: an unlisted triple is out of range, before the tag check; a typed view needs its tag (R177, R268). -/
def withField (view fld idx : Nat) (s : State) (run : Field → State → State) : Host.Outcome State Fault Refusal :=
  command s fun s =>
    match fieldOf view fld idx with
    | none => raise .illegalOperand s
    | some fd => if fieldOpen fd s.fb then run fd s else raise .typeMismatch s

/-- FNEW (R178): every byte zero but the tag. -/
def execFnew (kind : Nat) (s : State) : Host.Outcome State Fault Refusal :=
  withKind kind s fun k s => (s.setFb (memWrite blankFrame 8 4 (tagOf k).toNat)).respond 0

/-- FCHK (R179). -/
def execFchk (kind : Nat) (s : State) : Host.Outcome State Fault Refusal :=
  withKind kind s fun k s => if viewOk k s.fb then s.respond 0 else raise .typeMismatch s

/-- FGET (R180). -/
def execFget (view fld idx : Nat) (s : State) : Host.Outcome State Fault Refusal :=
  withField view fld idx s fun fd s => s.respond (BitVec.ofNat 128 (memRead s.fb fd.off fd.bytes))

/-- FSET (R181): exactly the field's bytes, from the low bits of the operand bus; the checksum is not updated. -/
def execFset (view fld idx : Nat) (s : State) : Host.Outcome State Fault Refusal :=
  withField view fld idx s fun fd s => (s.setFb (memWrite s.fb fd.off fd.bytes s.wdata.toNat)).respond 0

/-- FVAL (R184). -/
def execFval (s : State) : Host.Outcome State Fault Refusal := command s fun s => (s.setFb (sealFrame s.fb)).respond 0

/-- FISV (R185). -/
def execFisv (s : State) : Host.Outcome State Fault Refusal := command s fun s => s.respond (bitAnswer (frameValid s.fb))

end Sys2Proof.Machine
end

