-- ==== Sys2Proof/Machine/Loader.lean ====
section
/-! DEFINITION. The six Loader commands (spec/44_loader.md R220 to R234). -/

namespace Sys2Proof.Machine

/-- LNEXT part 1 (R224): the index advances except on the very first call, and the call is remembered. -/
def beginRead (l : Loader) : Loader :=
  { l with index := if l.started then wideInc l.index else l.index, started := true }

/-- LNEXT part 3 (R225): the frame's checksum is right and its sequence, zero-extended, is the running index. -/
def frameAccepted (f : Frame) (l : Loader) : Bool := frameValid f && (frameSequence f).setWidth 128 == l.index

/-- LNEXT part 3 (R225): the sticky fault flag. -/
def judge (f : Frame) (l : Loader) : Loader := { l with fault := l.fault || !frameAccepted f l }

/-- The Head arm's version test (R226): unsigned, at most the supported version. -/
def versionSupported (f : Frame) : Bool := decide (memRead f 12 4 ≤ cfg.supportedVersion.toNat)

/-- LNEXT part 4 (R223, R226 to R229): exactly one arm, the first whose condition holds. -/
def dispatchFrame (f : Frame) (l : Loader) : Loader :=
  if frameTag f = cfg.tagHead ∧ l.readhead = false then
    if versionSupported f then
      { l with label := labelAt f 32, count := wideAt f 16, size := wideAt f 64, readhead := true }
    else l
  else if frameTag f = cfg.tagFinf ∧ l.readhead = true ∧ l.readfinf = false then
    if l.count = 0 ∧ l.size = 0 then { l with count := wideAt f 16, size := wideAt f 64, readfinf := true }
    else { l with readfinf := true }
  else if frameTag f = cfg.tagData ∧ l.readhead = true ∧ l.readfinf = false then
    { l with dindex := wideAdd l.dindex 240 }
  else l

/-- LINIT (R221): construct the Loader; the current frame is cleared. -/
def execLinit (s : State) : Host.Outcome State Fault Refusal :=
  command s fun s => ((s.setL Loader.reset).setLf blankFrame).respond 0

/-- LNEXT (R223): one step of the reading machine. -/
def execLnext (s : State) : Host.Outcome State Fault Refusal :=
  command s fun s =>
    if s.l.readfinf then s.respond 0
    else
      let l := beginRead s.l
      match rxAnswer s with
      | none => ((recv s).setL l).respond 0
      | some f => (((recv s).setLf f).setL (dispatchFrame f (judge f l))).respond 1

/-- The payload LGDATA leaves in PB: the first `limit` payload bytes of a Data frame with zeros after; zeros otherwise
(R231). -/
def extractedPayload (f : Frame) (limit : Nat) : Payload :=
  if frameTag f = cfg.tagData then bufferOf 240 (readBytes f 12 limit)
  else zeroBuffer 240

/-- LGDATA (R231). -/
def execLgdata (limit : Nat) (s : State) : Host.Outcome State Fault Refusal :=
  checked (sizeLegal limit) s fun s =>
    (s.setPb (extractedPayload s.lf limit)).respond
      (if frameTag s.lf = cfg.tagData then BitVec.ofNat 128 limit else 0)

/-- LCHK (R232): no verdict until a Finish is recorded. -/
def execLchk (s : State) : Host.Outcome State Fault Refusal :=
  command s fun s =>
    if s.l.readfinf then s.respond (bitAnswer (!s.l.fault && wideInc s.l.index == s.l.count))
    else raise .noVerdict s

/-- LGETF (R233): the current frame, whole, into FB. -/
def execLgetf (s : State) : Host.Outcome State Fault Refusal := command s fun s => (s.setFb s.lf).respond 0

/-- LGLBL (R234): the captured label into LBL. -/
def execLglbl (s : State) : Host.Outcome State Fault Refusal := command s fun s => (s.setLbl s.l.label).respond 0

end Sys2Proof.Machine
end

