-- ==== Sys2Proof/Machine/Staging.lean ====
section
/-! DEFINITION. The staging commands and the one system command (spec/45_system_and_staging.md R246 to R250). -/

namespace Sys2Proof.Machine

/-- PBW (R247): lane `k` goes to `PB[16*idx + k]`. -/
def execPbw (idx : Nat) (s : State) : Host.Outcome State Fault Refusal :=
  checked (chunkLegal idx) s fun s => (s.setPb (memWrite s.pb (16 * idx) 16 s.wdata.toNat)).respond 0

/-- PBR (R248). -/
def execPbr (idx : Nat) (s : State) : Host.Outcome State Fault Refusal :=
  checked (chunkLegal idx) s fun s => s.respond (BitVec.ofNat 128 (memRead s.pb (16 * idx) 16))

/-- LBLW (R249): lane `k` goes to `LBL[16*half + k]`. -/
def execLblw (half : Nat) (s : State) : Host.Outcome State Fault Refusal :=
  checked (halfLegal half) s fun s => (s.setLbl (memWrite s.lbl (16 * half) 16 s.wdata.toNat)).respond 0

/-- LBLR (R250). -/
def execLblr (half : Nat) (s : State) : Host.Outcome State Fault Refusal :=
  checked (halfLegal half) s fun s => s.respond (BitVec.ofNat 128 (memRead s.lbl (16 * half) 16))

/-- SRD (R246): a special register, zero-extended, into a wide register; nothing is cleared by reading. -/
def execSrd (rd : Reg) (sreg : Nat) (s : State) : Host.Outcome State Fault Refusal :=
  command s fun s =>
    match specialReg s sreg with
    | none => raise .illegalOperand s
    | some v => (s.setReg rd v).respond 0

end Sys2Proof.Machine
end

