-- ==== Sys2Proof/Machine/Dispatch.lean ====
section
/-! DEFINITION. One arm per command: the meaning of each row of the opcode table (spec/30_encoding.md R94). -/

namespace Sys2Proof.Machine

def exec (i : Instr) (s : State) : Host.Outcome State Fault Refusal :=
  match i with
  | .wld rd => Sys2Proof.Machine.execWld rd s
  | .wldu rd => Sys2Proof.Machine.execWldu rd s
  | .wrd ra => Sys2Proof.Machine.execWrd ra s
  | .wmov rd ra => Sys2Proof.Machine.execWmov rd ra s
  | .wcvt8 ra => Sys2Proof.Machine.execWcvt8 ra s
  | .wcvt16 ra => Sys2Proof.Machine.execWcvt16 ra s
  | .wcvt32 ra => Sys2Proof.Machine.execWcvt32 ra s
  | .wcvt64 ra => Sys2Proof.Machine.execWcvt64 ra s
  | .wadd rd ra rb => Sys2Proof.Machine.execWadd rd ra rb s
  | .wsub rd ra rb => Sys2Proof.Machine.execWsub rd ra rb s
  | .wmul rd ra rb => Sys2Proof.Machine.execWmul rd ra rb s
  | .wdiv rd ra rb => Sys2Proof.Machine.execWdiv rd ra rb s
  | .wmod rd ra rb => Sys2Proof.Machine.execWmod rd ra rb s
  | .winc rd ra => Sys2Proof.Machine.execWinc rd ra s
  | .wdec rd ra => Sys2Proof.Machine.execWdec rd ra s
  | .wcmp ra rb => Sys2Proof.Machine.execWcmp ra rb s
  | .wand rd ra rb => Sys2Proof.Machine.execWand rd ra rb s
  | .wor rd ra rb => Sys2Proof.Machine.execWor rd ra rb s
  | .wxor rd ra rb => Sys2Proof.Machine.execWxor rd ra rb s
  | .wnot rd ra => Sys2Proof.Machine.execWnot rd ra s
  | .wshl rd ra rb => Sys2Proof.Machine.execWshl rd ra rb s
  | .wshr rd ra rb => Sys2Proof.Machine.execWshr rd ra rb s
  | .wshli rd ra imm16 => Sys2Proof.Machine.execWshli rd ra imm16 s
  | .wshri rd ra imm16 => Sys2Proof.Machine.execWshri rd ra imm16 s
  | .crcinit => Sys2Proof.Machine.execCrcinit s
  | .crcpb imm16 => Sys2Proof.Machine.execCrcpb imm16 s
  | .crcpr off len => Sys2Proof.Machine.execCrcpr off len s
  | .crcpk => Sys2Proof.Machine.execCrcpk s
  | .crcrd => Sys2Proof.Machine.execCrcrd s
  | .fnew kind => Sys2Proof.Machine.execFnew kind s
  | .fchk kind => Sys2Proof.Machine.execFchk kind s
  | .fget view fld idx => Sys2Proof.Machine.execFget view fld idx s
  | .fset view fld idx => Sys2Proof.Machine.execFset view fld idx s
  | .fval => Sys2Proof.Machine.execFval s
  | .fisv => Sys2Proof.Machine.execFisv s
  | .pbw idx => Sys2Proof.Machine.execPbw idx s
  | .pbr idx => Sys2Proof.Machine.execPbr idx s
  | .lblw half => Sys2Proof.Machine.execLblw half s
  | .lblr half => Sys2Proof.Machine.execLblr half s
  | .binit => Sys2Proof.Machine.execBinit s
  | .bwhead => Sys2Proof.Machine.execBwhead s
  | .bwheadx ra rb => Sys2Proof.Machine.execBwheadx ra rb s
  | .bwdata size => Sys2Proof.Machine.execBwdata size s
  | .bwcont => Sys2Proof.Machine.execBwcont s
  | .bwfin => Sys2Proof.Machine.execBwfin s
  | .linit => Sys2Proof.Machine.execLinit s
  | .lnext => Sys2Proof.Machine.execLnext s
  | .lgdata limit => Sys2Proof.Machine.execLgdata limit s
  | .lchk => Sys2Proof.Machine.execLchk s
  | .lgetf => Sys2Proof.Machine.execLgetf s
  | .lglbl => Sys2Proof.Machine.execLglbl s
  | .srd rd sreg => Sys2Proof.Machine.execSrd rd sreg s

end Sys2Proof.Machine
end

