-- ==== Sys2Proof/Machine/Step.lean ====
section
/-! DEFINITION. One step: the next action of the host (spec/00_scope.md R8 to R10).  A command word is decoded and run
to completion, in one step (R9, R96, R268); a seek moves the reference sink (R79); a reset puts the unit in its reset
state (R285).  With no action pending the unit is idle and holds its state (R273, R287). -/

namespace Sys2Proof.Machine

/-- A command word on the command port, its operand bus already driven. -/
def runWord (cmd : Word32) (s : State) : Host.Outcome State Fault Refusal :=
  match decode cmd with
  | .ok i => exec i s
  | .error _ => illegalWord s

/-- One step of the machine. -/
def step (s : State) : Host.Outcome State Fault Refusal :=
  match s.host.actions with
  | [] => .next s
  | .command cmd wdata :: _ => runWord cmd ((dropAction s).setWdata wdata)
  | .seek pos :: _ => .next (seekSink pos (dropAction s))
  | .reset :: _ => .next (resetUnit (dropAction s))

/-- `s` with the word `w` placed as the host's very next command, its operand bus all zero: the next step runs it. -/
def State.withFetchWord (s : State) (nbits w : Nat) : State :=
  s.setHost { s.host with actions := .command (BitVec.ofNat 32 (w % 2 ^ nbits)) 0 :: s.host.actions }

end Sys2Proof.Machine
end

