-- ==== Sys2Proof/Safety.lean ====
section
/-! DEFINITION. The terms the statements use: what a response leaves behind, what handing a frame to the host does, and
the invariant of the sequencer and of the sink (spec/10_state.md R38, R39; spec/20_memory.md R77 to R79). -/

namespace Sys2Proof.Safety

open Sys2Proof.Machine

/-- `s` after one response: the host's record of responses grows by it, and nothing else differs. -/
def answered (s : State) (st : Status) (v : Wide) : State :=
  { s with host := { s.host with responses := s.host.responses ++ [⟨st, v⟩] } }

/-- `s` with one wide register written. -/
def withReg (s : State) (rd : Reg) (v : Wide) : State := { s with w := s.w.set rd v }

/-- The step from `s` to `t` of a command that has the frame `F` to emit and leaves the Builder's record `b`.  When the
host's sink is ready (R77) the frame joins the accepted frames, the sink holds its 256 bytes at the cursor and every
other offset reads as before, the cursor moves by 256 (R79) and the answer is 1.  Otherwise the frame is dropped and
the answer is 0 (R78).  In both cases nothing else differs (R200). -/
def HandsOver (s t : State) (F : Frame) (b : Builder) : Prop :=
  (s.host.txReady = true ∧
    t = answered { s with
          b := b
          host := { s.host with
            txAnswers := s.host.txAnswers.tail
            txFrames := s.host.txFrames ++ [F]
            sink := t.host.sink
            sinkPos := s.host.sinkPos + 256 } } .ok 1 ∧
    (∀ k : Fin 256, t.host.sink.read (s.host.sinkPos + k) = some F[k]) ∧
    (∀ a, a < s.host.sinkPos ∨ s.host.sinkPos + 256 ≤ a → t.host.sink.read a = s.host.sink.read a)) ∨
  (s.host.txReady = false ∧
    t = answered { s with
          b := b
          host := { s.host with txAnswers := s.host.txAnswers.tail } } .ok 0)

/-- The sequencer's flags and the sink's form.  `B.wrote_finish` is set only under `B.wrote_head` (R38); a Finish is
recorded only after a Head, and a Head or a fault only by a call of LNEXT (R39, R224); before the first call the Loader
holds its construction values (R221).  Before a Head is written the Builder has counted nothing (R201, R202); before a
Head is recorded the Loader has captured and counted nothing (R223, R234).  The sink's cells are in canonical form. -/
def SequencerOrder (s : State) : Prop :=
  (s.b.wroteFinish = true → s.b.wroteHead = true) ∧
  (s.l.readfinf = true → s.l.readhead = true) ∧
  (s.l.readhead = true → s.l.started = true) ∧
  (s.l.fault = true → s.l.started = true) ∧
  (s.l.started = false → s.l = Loader.reset) ∧
  (s.b.wroteHead = false → s.b.index = 0 ∧ s.b.total = 0) ∧
  (s.l.readhead = false → s.l.label = zeroBuffer 32 ∧ s.l.count = 0 ∧ s.l.size = 0 ∧ s.l.dindex = 0) ∧
  s.host.sink.wf

end Sys2Proof.Safety
end

