-- ==== Sys2Proof/Certificates/Slice0/Obligations.lean ====
section
/-! DEFINITION. The statements for the provers, and the spec-side terms they are written in: the limb-wise, schoolbook
and scanning algorithms of spec/40_wide_arithmetic.md, the generator and digest of spec/41_crc32.md, the field table of
spec/42_frame_buffer.md R177 and the writer lists of spec/10_state.md R20.  None of these is used by the machine. -/

namespace Sys2Proof.Statements

open Sys2Proof.Machine

/-! ## Terms of the encoding -/

/-- The 52 assigned opcodes of R94. -/
def assigned (op : Nat) : Prop :=
  (0x10 ≤ op ∧ op ≤ 0x27) ∨ (0x30 ≤ op ∧ op ≤ 0x34) ∨ (0x40 ≤ op ∧ op ≤ 0x45) ∨ (0x50 ≤ op ∧ op ≤ 0x53) ∨
    (0x60 ≤ op ∧ op ≤ 0x65) ∨ (0x70 ≤ op ∧ op ≤ 0x75) ∨ op = 0x80

/-! ## Terms of the wide arithmetic -/

/-- Limb 0: bits 63:0 (R120). -/
def limb0 (a : Wide) : BitVec 64 := a.extractLsb' 0 64

/-- Limb 1: bits 127:64 (R120). -/
def limb1 (a : Wide) : BitVec 64 := a.extractLsb' 64 64

/-- Limb-wise addition with the carry out of limb 0 (R132). -/
def limbAdd (a b : Wide) : Wide :=
  let s0 := (limb0 a).toNat + (limb0 b).toNat
  (limb1 a + limb1 b + BitVec.ofNat 64 (s0 / 2 ^ 64)) ++ BitVec.ofNat 64 s0

/-- Limb-wise subtraction with the borrow out of limb 0 (R133). -/
def limbSub (a b : Wide) : Wide :=
  let borrow : BitVec 64 := if (limb0 a).toNat < (limb0 b).toNat then 1 else 0
  (limb1 a - limb1 b - borrow) ++ (limb0 a - limb0 b)

/-- Schoolbook shift-add over the 128 bit positions of the multiplier (R134). -/
def schoolbook (a b : Wide) : Wide :=
  (List.range 128).foldl (fun acc i => if b.getLsbD i then acc + (a <<< i) else acc) 0

/-- Restoring long division (R148): positions `n - 1` down to 0, on a pair of quotient and remainder. -/
def scan (divisor : Nat) : Nat → Nat × Nat → Nat × Nat
  | 0, qr => qr
  | i + 1, (q, r) =>
    if divisor * 2 ^ i ≤ r then scan divisor i (q + 2 ^ i, r - divisor * 2 ^ i) else scan divisor i (q, r)

/-- Comparison by limbs, most significant first (R139). -/
def limbCmp (a b : Wide) : Wide :=
  if limb1 a = limb1 b then
    if limb0 a = limb0 b then 0 else if (limb0 a).toNat < (limb0 b).toNat then 1 else 2
  else if (limb1 a).toNat < (limb1 b).toNat then 1 else 2

/-- The limb forms of the left shift (R144). -/
def limbShl (a : Wide) (n : Nat) : Wide :=
  if n = 0 then a
  else if n < 64 then (limb1 a <<< n ||| limb0 a >>> (64 - n)) ++ (limb0 a <<< n)
  else if n = 64 then limb0 a ++ 0#64
  else if n < 128 then (limb0 a <<< (n - 64)) ++ 0#64
  else 0

/-- The limb forms of the right shift (R145). -/
def limbShr (a : Wide) (n : Nat) : Wide :=
  if n = 0 then a
  else if n < 64 then (limb1 a >>> n) ++ (limb0 a >>> n ||| limb1 a <<< (64 - n))
  else if n = 64 then 0#64 ++ limb1 a
  else if n < 128 then 0#64 ++ (limb1 a >>> (n - 64))
  else 0

/-! ## Terms of bytes and of the CRC -/

/-- Lane `k` of a bus: bits `8k+7 : 8k` (R66). -/
def lane (v : Wide) (k : Nat) : Byte := v.extractLsb' (8 * k) 8

/-- `MemRead(buf, off, n)` as the sum of R63. -/
def sumAt {m : Nat} (buf : Buffer m) (off n : Nat) : Nat :=
  ∑ k ∈ Finset.range n, (byteAt buf (off + k)).toNat * 256 ^ k

/-- The bytes `buf[off .. off+len)`. -/
def bytesAt {m : Nat} (buf : Buffer m) (off len : Nat) : List Byte :=
  (List.range len).map fun k => byteAt buf (off + k)

/-- `CRC_LUT[n]` as the eight iterations of R161. -/
def lutOf (n : Nat) : Word32 :=
  (fun c : Word32 => if c.getLsbD 0 then (c >>> 1) ^^^ 0xEDB88320 else c >>> 1)^[8] (BitVec.ofNat 32 n)

/-- `step(acc, b)` of R163 over the generated table. -/
def stepOf (acc : Word32) (b : Byte) : Word32 :=
  lutOf ((acc ^^^ b.setWidth 32).setWidth 8).toNat ^^^ (acc >>> 8)

/-- `crc32(s)` of R163. -/
def digestOf (bs : List Byte) : Word32 := bs.foldl stepOf 0xFFFFFFFF ^^^ 0xFFFFFFFF

/-- A frame whose stored checksum is the digest of its first 252 bytes (R72, R185). -/
def CorrectlySealed (f : Frame) : Prop := sumAt f 252 4 = (digestOf (bytesAt f 0 252)).toNat

/-! ## Terms of the frame buffer -/

/-- The rows of R177: view, fld, number of chunks, offset of chunk 0, bytes moved. -/
def fieldTable : List (Nat × Nat × Nat × Nat × Nat) :=
  [ (0, 0, 1, 0, 8), (0, 1, 1, 8, 4), (0, 2, 15, 12, 16), (0, 3, 1, 252, 4),
    (1, 0, 1, 12, 4), (1, 1, 1, 16, 16), (1, 2, 2, 32, 16), (1, 3, 1, 64, 16),
    (2, 1, 1, 16, 16), (2, 2, 2, 32, 16), (2, 3, 1, 64, 16),
    (3, 2, 15, 12, 16), (4, 1, 1, 16, 16), (4, 2, 2, 32, 16) ]

/-- The triple names the `n` bytes at offset `off` (R177). -/
def Listed (view fld idx off n : Nat) : Prop :=
  ∃ chunks base, (view, fld, chunks, base, n) ∈ fieldTable ∧ idx < chunks ∧ off = base + 16 * idx

/-- `tag_of(kind)` for the kinds 1 to 4 (R176). -/
def tagOfKind (kind : Nat) : Word32 :=
  if kind = 1 then cfg.tagHead else if kind = 2 then cfg.tagFinf else if kind = 3 then cfg.tagData else cfg.tagCont

/-- A view may be used on a frame: RAW always, a typed view when the tag is its own (R176). -/
def ViewFits (view : Nat) (f : Frame) : Prop := view = 0 ∨ sumAt f 8 4 = (tagOfKind view).toNat

/-! ## Terms of the writer table -/

/-- The one wide register a command may write: its `rd`, where R20 lists it. -/
def destination : Instr → Option Reg
  | .wld rd | .wldu rd | .wmov rd _ | .winc rd _ | .wdec rd _ | .wnot rd _ | .wshli rd _ _ | .wshri rd _ _
  | .wadd rd _ _ | .wsub rd _ _ | .wmul rd _ _ | .wdiv rd _ _ | .wmod rd _ _ | .wand rd _ _ | .wor rd _ _
  | .wxor rd _ _ | .wshl rd _ _ | .wshr rd _ _ | .srd rd _ => some rd
  | _ => none

/-- The commands that write `CRC.acc` (R20). -/
def writesCrc : Instr → Prop
  | .crcinit | .crcpb _ | .crcpr _ _ | .crcpk => True
  | _ => False

/-- The commands that write `FB` (R20). -/
def writesFb : Instr → Prop
  | .fnew _ | .fset _ _ _ | .fval | .lgetf => True
  | _ => False

/-- The commands that write `PB` (R20). -/
def writesPb : Instr → Prop
  | .pbw _ | .lgdata _ => True
  | _ => False

/-- The commands that write `LBL` (R20). -/
def writesLbl : Instr → Prop
  | .lblw _ | .lglbl => True
  | _ => False

/-- The commands that write `B.index` (R20). -/
def writesIndex : Instr → Prop
  | .binit | .bwhead | .bwheadx _ _ | .bwdata _ | .bwcont => True
  | _ => False

/-- The commands that write `B.wrote_head` (R20). -/
def writesHeadFlag : Instr → Prop
  | .binit | .bwhead | .bwheadx _ _ => True
  | _ => False

/-- WDIV and WMOD, the commands that write the `FAULTED` latch (R20), with their divisor register. -/
def divisorOf : Instr → Option Reg
  | .wdiv _ _ rb | .wmod _ _ rb => some rb
  | _ => none

/-- The commands that can answer ILLEGAL_OPERAND (R260). -/
def hasOperandRange : Instr → Prop
  | .crcpb _ | .crcpr _ _ | .fnew _ | .fchk _ | .fget _ _ _ | .fset _ _ _ | .pbw _ | .pbr _ | .lblw _ | .lblr _
  | .bwdata _ | .lgdata _ | .srd _ _ => True
  | _ => False

/-- The commands with a typed view, which can answer TYPE_MISMATCH (R260). -/
def usesView : Instr → Prop
  | .fchk _ | .fget _ _ _ | .fset _ _ _ => True
  | _ => False

/-- The Builder's six commands. -/
def isBuilder : Instr → Prop
  | .binit | .bwhead | .bwheadx _ _ | .bwdata _ | .bwcont | .bwfin => True
  | _ => False

/-- The Loader's six commands. -/
def isLoader : Instr → Prop
  | .linit | .lnext | .lgdata _ | .lchk | .lgetf | .lglbl => True
  | _ => False

/-- The bytes a CRC push takes, in order (R165 to R167). -/
def pushedBytes (i : Instr) (s : State) : Option (List Byte) :=
  match i with
  | .crcpb v => if v ≤ 255 then some [BitVec.ofNat 8 v] else none
  | .crcpr off len => if off + len ≤ 256 then some (bytesAt s.fb off len) else none
  | .crcpk => some ((List.range 16).map (lane s.wdata))
  | _ => none

/-- The index LNEXT compares with: advanced by one except on the very first call (R224). -/
def nextIndex (l : Loader) : Wide := if l.started then l.index + 1 else l.index

/-- The frame passes LNEXT's validation at index `n`: the checksum is right and the sequence is the index (R225). -/
def Passes (f : Frame) (n : Wide) : Prop := CorrectlySealed f ∧ sumAt f 0 8 = n.toNat

end Sys2Proof.Statements

open Sys2Proof Sys2Proof.Machine Sys2Proof.Safety Sys2Proof.Statements

/-! ## Encoding -/

/-- Decoding the word of a well-formed instruction gives the instruction back, every operand at every value its field
admits (R91, R92, R94, R96). -/
def Obligations.DecodeOfEncode : Prop := ∀ i : Instr, i.wellFormed = true → decode (encode i) = .ok i

/-- A word that decodes is the one word of the instruction it decodes to: no assigned encoding ignores a bit (R92, R96). -/
def Obligations.EncodeOfDecode : Prop := ∀ (c : Word32) (i : Instr), decode c = .ok i → i.wellFormed = true ∧ encode i = c

/-- The worked encodings of R114, one per format, with its two refused words. -/
def Obligations.WorkedEncodingsDecode : Prop :=
  decode 0x18312000 = .ok (.wadd 3 1 2) ∧ decode 0x23F00000 = .ok (.wnot 15 0) ∧ decode 0x11100000 = .ok (.wldu 1) ∧
  decode 0x16090000 = .ok (.wcvt32 9) ∧ decode 0x1F051000 = .ok (.wcmp 5 1) ∧ decode 0x26110040 = .ok (.wshli 1 1 64) ∧
  decode 0x80200002 = .ok (.srd 2 2) ∧ decode 0x65000000 = .ok .bwfin ∧ decode 0x630000F0 = .ok (.bwdata 240) ∧
  decode 0x320000FC = .ok (.crcpr 0 252) ∧ decode 0x42012001 = .ok (.fget 1 2 1) ∧
  decode 0x18312001 = .error .mustBeZeroBit ∧ decode 0x630000F1 = .ok (.bwdata 241) ∧
  ∀ s : State, s.faulted = false →
    exec (.bwdata 241) s = .next (answered { s with ill := true } .illegalOperand 0)

/-- A word is illegal exactly when its opcode is unassigned or a must-be-zero bit of its format is 1; such a word sets
`ILL`, changes nothing else and answers ILLEGAL_COMMAND (R96, R108, R262).  The latch-set case is
`FaultedLatchAnswersEveryCommand`. -/
def Obligations.IllegalWordsOnlyMarkIll : Prop :=
  (∀ c : Word32, decode c = .error .unassignedOpcode ↔ ¬ assigned (c.extractLsb' 24 8).toNat) ∧
  (∀ c : Word32, decode c = .error .mustBeZeroBit ↔
    assigned (c.extractLsb' 24 8).toNat ∧ ∀ i : Instr, i.wellFormed = true → encode i ≠ c) ∧
  (∃ e, decode 0x00000000 = .error e) ∧ (∃ e, decode 0xFFFFFFFF = .error e) ∧
  ∀ (s : State) (c : Word32) (v : Wide) (rest : List HostAction) (e : Illegal),
    s.faulted = false → s.host.actions = .command c v :: rest → decode c = .error e →
    step s = .next (answered { s with ill := true, wdata := v, host := { s.host with actions := rest } } .illegalCommand 0)

/-- The host's next command word, when it decodes, is run by `exec` on the state with that action taken off the host's
list and the operand bus driven; the decoded instruction is well-formed (R9, R10, R96). -/
def Obligations.StepRunsDecodedCommand : Prop :=
  ∀ (s : State) (c : Word32) (v : Wide) (rest : List HostAction) (i : Instr),
    s.host.actions = .command c v :: rest → decode c = .ok i →
    i.wellFormed = true ∧ step s = exec i { s with wdata := v, host := { s.host with actions := rest } }

/-! ## The whole machine -/

/-- The `FAULTED` latch (R266): 0 after reset; set only by a zero divisor of WDIV or WMOD; cleared only by reset; while
it is 1 every word, legal or not, answers FAULTED and changes no state of the unit. -/
def Obligations.FaultedLatchAnswersEveryCommand : Prop :=
  State.reset.faulted = false ∧
  (∀ (i : Instr) (s t : State), s.faulted = false → exec i s = .next t → t.faulted = true →
    ∃ rb, divisorOf i = some rb ∧ s.reg rb = 0) ∧
  (∀ (i : Instr) (s : State), s.faulted = true → exec i s = .next (answered s .faulted 0)) ∧
  (∀ (s : State) (c : Word32) (v : Wide) (rest : List HostAction),
    s.faulted = true → s.host.actions = .command c v :: rest →
    step s = .next (answered { s with wdata := v, host := { s.host with actions := rest } } .faulted 0)) ∧
  (∀ s t : State, s.faulted = true → step s = .next t → t.faulted = false → s.host.actions.head? = some .reset)

/-- No state stops the model: every step and every command has a next state.  That is the model's choice, and no rule
says it as it stands: idling is a step (log entry 4, DESIGN CHOICE), the host answers every stream request (log entry 8,
DESIGN CHOICE, unsafe for a host that does not: by R82 and R297 its command then never completes), and a run goes on
after DIV_BY_ZERO with the latch set where R298 would also let a model end it in a fault (log entry 9, DEDUCED). -/
def Obligations.StepAlwaysHasNextState : Prop :=
  (∀ s : State, ∃ t, step s = .next t) ∧ ∀ (i : Instr) (s : State), ∃ t, exec i s = .next t

/-- Every command answers exactly once, with result 0 whenever the status is not OK, and leaves the operand bus and the
host's remaining actions alone (R9, R10). -/
def Obligations.OneResponsePerCommand : Prop :=
  ∀ (i : Instr) (s t : State), exec i s = .next t →
    (∃ st v, t.host.responses = s.host.responses ++ [⟨st, v⟩] ∧ (st ≠ .ok → v = 0)) ∧
    t.wdata = s.wdata ∧ t.host.actions = s.host.actions

/-- The state table of R20: a command not listed for a field never changes it, WAU commands and SRD write only their
`rd`, a word that is no command changes nothing but `ILL`, and every field has the reset value of the table's last
column. -/
def Obligations.OnlyListedCommandsWrite : Prop :=
  (∀ (i : Instr) (s t : State), exec i s = .next t →
    (∀ r, t.reg r ≠ s.reg r → destination i = some r) ∧
    (t.crcAcc ≠ s.crcAcc → writesCrc i) ∧
    (t.fb ≠ s.fb → writesFb i) ∧
    (t.lf ≠ s.lf → i = .linit ∨ i = .lnext) ∧
    (t.pb ≠ s.pb → writesPb i) ∧
    (t.lbl ≠ s.lbl → writesLbl i) ∧
    (t.b.label ≠ s.b.label → i = .binit) ∧
    (t.b.index ≠ s.b.index → writesIndex i) ∧
    (t.b.total ≠ s.b.total → i = .binit ∨ ∃ n, i = .bwdata n) ∧
    (t.b.wroteHead ≠ s.b.wroteHead → writesHeadFlag i) ∧
    (t.b.wroteFinish ≠ s.b.wroteFinish → i = .binit ∨ i = .bwfin) ∧
    (t.l ≠ s.l → i = .linit ∨ i = .lnext) ∧
    (t.faulted ≠ s.faulted → ∃ rb, divisorOf i = some rb ∧ s.reg rb = 0) ∧
    (t.ill ≠ s.ill → t.host.responses = s.host.responses ++ [⟨.illegalOperand, 0⟩])) ∧
  (∀ (s t : State) (c : Word32) (v : Wide) (rest : List HostAction) (e : Illegal),
    s.host.actions = .command c v :: rest → decode c = .error e → step s = .next t →
    t = { s with ill := t.ill, wdata := v, host := t.host } ∧
    (t.ill ≠ s.ill → t.host.responses = s.host.responses ++ [⟨.illegalCommand, 0⟩])) ∧
  (∀ r, State.reset.reg r = 0) ∧ State.reset.crcAcc = 0xFFFFFFFF ∧
  (∀ a, a < 256 → byteAt State.reset.fb a = 0 ∧ byteAt State.reset.lf a = 0) ∧
  (∀ a, a < 240 → byteAt State.reset.pb a = 0) ∧
  (∀ a, a < 32 → byteAt State.reset.lbl a = 0 ∧ byteAt State.reset.b.label a = 0 ∧ byteAt State.reset.l.label a = 0) ∧
  State.reset.b.index = 0 ∧ State.reset.b.total = 0 ∧ State.reset.b.wroteHead = false ∧
  State.reset.b.wroteFinish = false ∧ State.reset.l.count = 0 ∧ State.reset.l.index = 0 ∧ State.reset.l.size = 0 ∧
  State.reset.l.dindex = 0 ∧ State.reset.l.readhead = false ∧ State.reset.l.readfinf = false ∧
  State.reset.l.fault = false ∧ State.reset.l.started = false ∧ State.reset.faulted = false ∧ State.reset.ill = false

/-- Every command does at most one stream operation: only a frame-writing Builder command samples `tx_ok` or hands a
frame over, one whole frame after the earlier ones, and only LNEXT takes an answer of the source, at most one (R9, R77,
R80, R83). -/
def Obligations.AtMostOneStreamOperation : Prop :=
  ∀ (i : Instr) (s t : State), exec i s = .next t →
    (t.host.txFrames = s.host.txFrames ∨
      (isBuilder i ∧ i ≠ .binit ∧ ∃ F, t.host.txFrames = s.host.txFrames ++ [F])) ∧
    (t.host.txAnswers = s.host.txAnswers ∨ (isBuilder i ∧ i ≠ .binit ∧ t.host.txAnswers = s.host.txAnswers.tail)) ∧
    (t.host.rxAnswers = s.host.rxAnswers ∨ (i = .lnext ∧ t.host.rxAnswers = s.host.rxAnswers.tail)) ∧
    (t.host.txFrames = s.host.txFrames → t.host.sink = s.host.sink ∧ t.host.sinkPos = s.host.sinkPos)

/-- The status table of R260: the seven codes, no other, and the commands each status can come from. -/
def Obligations.StatusTable : Prop :=
  statusCode .ok = 0x00 ∧ statusCode .typeMismatch = 0x01 ∧ statusCode .illegalCommand = 0x02 ∧
  statusCode .illegalOperand = 0x03 ∧ statusCode .divByZero = 0x04 ∧ statusCode .faulted = 0x05 ∧
  statusCode .noVerdict = 0x06 ∧ (∀ st, (statusCode st).toNat < 7) ∧
  ∀ (i : Instr) (s t : State) (st : Status) (v : Wide), exec i s = .next t →
    t.host.responses = s.host.responses ++ [⟨st, v⟩] →
    (st = .typeMismatch → usesView i) ∧ st ≠ .illegalCommand ∧ (st = .illegalOperand → hasOperandRange i) ∧
    (st = .divByZero → ∃ rb, divisorOf i = some rb) ∧ (st = .faulted → s.faulted = true) ∧
    (st = .noVerdict → i = .lchk)

/-! ## Reset and the host's actions -/

/-- The reset state of R37, and that the Builder's equals the one BINIT leaves with LBL all zero and the Loader's, its
record and its current frame `LF`, the one LINIT leaves. -/
def Obligations.ResetStateValues : Prop :=
  (∀ r, State.reset.reg r = 0) ∧ State.reset.crcAcc = 0xFFFFFFFF ∧
  (∀ a, a < 256 → byteAt State.reset.fb a = 0 ∧ byteAt State.reset.lf a = 0) ∧
  (∀ a, a < 240 → byteAt State.reset.pb a = 0) ∧
  (∀ a, a < 32 → byteAt State.reset.lbl a = 0 ∧ byteAt State.reset.b.label a = 0 ∧ byteAt State.reset.l.label a = 0) ∧
  State.reset.b.index = 0 ∧ State.reset.b.total = 0 ∧ State.reset.l.count = 0 ∧ State.reset.l.index = 0 ∧
  State.reset.l.size = 0 ∧ State.reset.l.dindex = 0 ∧ statusWord State.reset = 0 ∧
  (∀ s t : State, s.faulted = false → (∀ a, a < 32 → byteAt s.lbl a = 0) → exec .binit s = .next t →
    t.b = State.reset.b) ∧
  (∀ s t : State, s.faulted = false → exec .linit s = .next t → t.l = State.reset.l ∧ t.lf = State.reset.lf)

/-- What the host does between commands, and an idle unit.  With no action pending nothing changes (R273; the model's
choice, log entry 4).  A seek moves the sink's cursor only (R79).  A reset gives every field of the unit its reset value,
`FAULTED` included, and leaves the host's side alone (R285; log entry 7). -/
def Obligations.HostActionsBetweenCommands : Prop :=
  (∀ s : State, s.host.actions = [] → step s = .next s) ∧
  (∀ (s : State) (p : Nat) (rest : List HostAction), s.host.actions = .seek p :: rest →
    step s = .next { s with host := { s.host with actions := rest, sinkPos := p } }) ∧
  (∀ (s : State) (rest : List HostAction), s.host.actions = .reset :: rest →
    step s = .next { s with
      w := State.reset.w, crcAcc := State.reset.crcAcc, fb := State.reset.fb, lf := State.reset.lf
      pb := State.reset.pb, lbl := State.reset.lbl, b := State.reset.b, l := State.reset.l
      faulted := false, ill := false, host := { s.host with actions := rest } })

/-! ## Invariants -/

/-- Every step keeps the sequencer's flag order, its empty counts and the sink's canonical form, from every state that
has them (R38, R39, R221). -/
def Obligations.StepKeepsSequencerOrder : Prop := ∀ s t : State, SequencerOrder s → step s = .next t → SequencerOrder t

/-- The reset state has them. -/
def Obligations.ResetHasSequencerOrder : Prop := SequencerOrder State.reset

/-- `L.fault` is sticky: no command but LINIT clears it, no host action but reset does, and neither a later valid frame
nor the end of the stream does (R225, R35). -/
def Obligations.LoaderFaultIsSticky : Prop :=
  (∀ (i : Instr) (s t : State), exec i s = .next t → s.l.fault = true → i ≠ .linit → t.l.fault = true) ∧
  (∀ s t : State, step s = .next t → s.l.fault = true → t.l.fault = false →
    s.host.actions.head? = some .reset ∨ ∃ c v, s.host.actions.head? = some (.command c v) ∧ decode c = .ok .linit)

/-! ## Wide arithmetic -/

/-- WLD and WLDU (R124, R125). -/
def Obligations.LoadsWriteTheOperandBus : Prop :=
  ∀ (rd : Reg) (s : State), s.faulted = false →
    encode (.wld rd) = 0x10#8 ++ BitVec.ofNat 4 rd ++ 0#20 ∧
    exec (.wld rd) s = .next (answered (withReg s rd s.wdata) .ok 0) ∧
    encode (.wldu rd) = 0x11#8 ++ BitVec.ofNat 4 rd ++ 0#20 ∧
    exec (.wldu rd) s = .next (answered (withReg s rd (BitVec.ofNat 128 (s.wdata.toNat % 2 ^ 64))) .ok 0)

/-- WRD and WMOV (R126, R127). -/
def Obligations.RegisterReadAndMove : Prop :=
  ∀ (rd ra : Reg) (s : State), s.faulted = false →
    encode (.wrd ra) = 0x12#8 ++ 0#4 ++ BitVec.ofNat 4 ra ++ 0#16 ∧
    exec (.wrd ra) s = .next (answered s .ok (s.reg ra)) ∧
    encode (.wmov rd ra) = 0x13#8 ++ BitVec.ofNat 4 rd ++ BitVec.ofNat 4 ra ++ 0#16 ∧
    exec (.wmov rd ra) s = .next (answered (withReg s rd (s.reg ra)) .ok 0)

/-- WCVT8, WCVT16, WCVT32 and WCVT64 answer the low bits and write no state (R128 to R131). -/
def Obligations.NarrowingKeepsLowOrderBits : Prop :=
  ∀ (ra : Reg) (s : State), s.faulted = false →
    encode (.wcvt8 ra) = 0x14#8 ++ 0#4 ++ BitVec.ofNat 4 ra ++ 0#16 ∧
    exec (.wcvt8 ra) s = .next (answered s .ok (BitVec.ofNat 128 ((s.reg ra).toNat % 2 ^ 8))) ∧
    encode (.wcvt16 ra) = 0x15#8 ++ 0#4 ++ BitVec.ofNat 4 ra ++ 0#16 ∧
    exec (.wcvt16 ra) s = .next (answered s .ok (BitVec.ofNat 128 ((s.reg ra).toNat % 2 ^ 16))) ∧
    encode (.wcvt32 ra) = 0x16#8 ++ 0#4 ++ BitVec.ofNat 4 ra ++ 0#16 ∧
    exec (.wcvt32 ra) s = .next (answered s .ok (BitVec.ofNat 128 ((s.reg ra).toNat % 2 ^ 32))) ∧
    encode (.wcvt64 ra) = 0x17#8 ++ 0#4 ++ BitVec.ofNat 4 ra ++ 0#16 ∧
    exec (.wcvt64 ra) s = .next (answered s .ok (BitVec.ofNat 128 ((s.reg ra).toNat % 2 ^ 64)))

/-- WADD: the sum modulo `2^128`, which is limb-wise addition with the carry across the limb boundary (R132). -/
def Obligations.AddWrapsAndCarriesAcrossLimbs : Prop :=
  ∀ (rd ra rb : Reg) (s : State), s.faulted = false →
    encode (.wadd rd ra rb) = 0x18#8 ++ BitVec.ofNat 4 rd ++ BitVec.ofNat 4 ra ++ BitVec.ofNat 4 rb ++ 0#12 ∧
    exec (.wadd rd ra rb) s = .next (answered (withReg s rd
      (BitVec.ofNat 128 (((s.reg ra).toNat + (s.reg rb).toNat) % 2 ^ 128))) .ok 0) ∧
    exec (.wadd rd ra rb) s = .next (answered (withReg s rd (limbAdd (s.reg ra) (s.reg rb))) .ok 0)

/-- WSUB: the difference modulo `2^128`, which is limb-wise subtraction with borrow (R133). -/
def Obligations.SubWrapsAndBorrowsAcrossLimbs : Prop :=
  ∀ (rd ra rb : Reg) (s : State), s.faulted = false →
    encode (.wsub rd ra rb) = 0x19#8 ++ BitVec.ofNat 4 rd ++ BitVec.ofNat 4 ra ++ BitVec.ofNat 4 rb ++ 0#12 ∧
    exec (.wsub rd ra rb) s = .next (answered (withReg s rd
      (BitVec.ofNat 128 (((s.reg ra).toNat + 2 ^ 128 - (s.reg rb).toNat) % 2 ^ 128))) .ok 0) ∧
    exec (.wsub rd ra rb) s = .next (answered (withReg s rd (limbSub (s.reg ra) (s.reg rb))) .ok 0)

/-- WINC and WDEC wrap, and they are limb-wise addition and subtraction of one (R137, R138). -/
def Obligations.IncrementAndDecrementWrap : Prop :=
  ∀ (rd ra : Reg) (s : State), s.faulted = false →
    encode (.winc rd ra) = 0x1D#8 ++ BitVec.ofNat 4 rd ++ BitVec.ofNat 4 ra ++ 0#16 ∧
    exec (.winc rd ra) s = .next (answered (withReg s rd
      (BitVec.ofNat 128 (((s.reg ra).toNat + 1) % 2 ^ 128))) .ok 0) ∧
    exec (.winc rd ra) s = .next (answered (withReg s rd (limbAdd (s.reg ra) 1)) .ok 0) ∧
    encode (.wdec rd ra) = 0x1E#8 ++ BitVec.ofNat 4 rd ++ BitVec.ofNat 4 ra ++ 0#16 ∧
    exec (.wdec rd ra) s = .next (answered (withReg s rd
      (BitVec.ofNat 128 (((s.reg ra).toNat + 2 ^ 128 - 1) % 2 ^ 128))) .ok 0) ∧
    exec (.wdec rd ra) s = .next (answered (withReg s rd (limbSub (s.reg ra) 1)) .ok 0)

/-- WMUL: the low 128 bits of the product, which is the schoolbook shift-add (R134). -/
def Obligations.MultiplyIsSchoolbookShiftAdd : Prop :=
  ∀ (rd ra rb : Reg) (s : State), s.faulted = false →
    encode (.wmul rd ra rb) = 0x1A#8 ++ BitVec.ofNat 4 rd ++ BitVec.ofNat 4 ra ++ BitVec.ofNat 4 rb ++ 0#12 ∧
    exec (.wmul rd ra rb) s = .next (answered (withReg s rd
      (BitVec.ofNat 128 (((s.reg ra).toNat * (s.reg rb).toNat) % 2 ^ 128))) .ok 0) ∧
    exec (.wmul rd ra rb) s = .next (answered (withReg s rd (schoolbook (s.reg ra) (s.reg rb))) .ok 0)

/-- WDIV and WMOD with a nonzero divisor: the exact floor quotient and remainder, the remainder below the divisor, and
`(a div b) * b + (a mod b) = a` with no wrap (R135, R136).  The zero divisor is `ZeroDivisorIsFatal`. -/
def Obligations.DivisionIsExact : Prop :=
  ∀ (rd ra rb : Reg) (s : State), s.faulted = false →
    encode (.wdiv rd ra rb) = 0x1B#8 ++ BitVec.ofNat 4 rd ++ BitVec.ofNat 4 ra ++ BitVec.ofNat 4 rb ++ 0#12 ∧
    encode (.wmod rd ra rb) = 0x1C#8 ++ BitVec.ofNat 4 rd ++ BitVec.ofNat 4 ra ++ BitVec.ofNat 4 rb ++ 0#12 ∧
    (s.reg rb ≠ 0 → ∃ q r : Wide,
      exec (.wdiv rd ra rb) s = .next (answered (withReg s rd q) .ok 0) ∧
      exec (.wmod rd ra rb) s = .next (answered (withReg s rd r) .ok 0) ∧
      q.toNat = (s.reg ra).toNat / (s.reg rb).toNat ∧ r.toNat = (s.reg ra).toNat % (s.reg rb).toNat ∧
      r.toNat < (s.reg rb).toNat ∧ q.toNat * (s.reg rb).toNat + r.toNat = (s.reg ra).toNat) ∧
    (s.reg rb = 0 →
      exec (.wdiv rd ra rb) s = .next (answered { s with faulted := true } .divByZero 0) ∧
      exec (.wmod rd ra rb) s = .next (answered { s with faulted := true } .divByZero 0))

/-- The restoring scan of R148, from the highest position that loses no bit of the divisor, gives exactly what WDIV and
WMOD write; from one position lower it does not (`2^127 / 1` gives quotient `2^127 - 1`, remainder 1). -/
def Obligations.RestoringScanIsTheDivision : Prop :=
  (∀ (rd ra rb : Reg) (s : State) (w : Nat), s.faulted = false →
    (s.reg rb).toNat * 2 ^ w < 2 ^ 128 → 2 ^ 128 ≤ (s.reg rb).toNat * 2 ^ (w + 1) →
    exec (.wdiv rd ra rb) s = .next (answered (withReg s rd
      (BitVec.ofNat 128 (scan (s.reg rb).toNat (w + 1) (0, (s.reg ra).toNat)).1)) .ok 0) ∧
    exec (.wmod rd ra rb) s = .next (answered (withReg s rd
      (BitVec.ofNat 128 (scan (s.reg rb).toNat (w + 1) (0, (s.reg ra).toNat)).2)) .ok 0)) ∧
  scan 1 127 (0, 2 ^ 127) = (2 ^ 127 - 1, 1)

/-- A zero divisor is fatal (R265): FAULTED is set, the destination and everything else is unchanged, the answer is
DIV_BY_ZERO, and from the next command on every command answers FAULTED. -/
def Obligations.ZeroDivisorIsFatal : Prop :=
  ∀ (i : Instr) (rb : Reg) (s : State), s.faulted = false → divisorOf i = some rb → s.reg rb = 0 →
    exec i s = .next (answered { s with faulted := true } .divByZero 0) ∧
    ∀ j : Instr, exec j (answered { s with faulted := true } .divByZero 0) =
      .next (answered (answered { s with faulted := true } .divByZero 0) .faulted 0)

/-- WCMP: the unsigned total order, decided limb by limb from the most significant, in one code from which the six
relations follow; no state is written (R139). -/
def Obligations.CompareIsTheUnsignedOrder : Prop :=
  ∀ (ra rb : Reg) (s : State), s.faulted = false →
    encode (.wcmp ra rb) = 0x1F#8 ++ 0#4 ++ BitVec.ofNat 4 ra ++ BitVec.ofNat 4 rb ++ 0#12 ∧
    ∃ code : Wide, exec (.wcmp ra rb) s = .next (answered s .ok code) ∧ code = limbCmp (s.reg ra) (s.reg rb) ∧
      (code = 0 ∨ code = 1 ∨ code = 2) ∧
      (code = 0 ↔ s.reg ra = s.reg rb) ∧ (code ≠ 0 ↔ s.reg ra ≠ s.reg rb) ∧
      (code = 1 ↔ (s.reg ra).toNat < (s.reg rb).toNat) ∧ (code ≠ 2 ↔ (s.reg ra).toNat ≤ (s.reg rb).toNat) ∧
      (code = 2 ↔ (s.reg rb).toNat < (s.reg ra).toNat) ∧ (code ≠ 1 ↔ (s.reg rb).toNat ≤ (s.reg ra).toNat)

/-- WAND, WOR, WXOR and WNOT, bit by bit over all 128 bits (R140 to R143). -/
def Obligations.BitwiseCommandsActBitByBit : Prop :=
  ∀ (rd ra rb : Reg) (s : State), s.faulted = false →
    encode (.wand rd ra rb) = 0x20#8 ++ BitVec.ofNat 4 rd ++ BitVec.ofNat 4 ra ++ BitVec.ofNat 4 rb ++ 0#12 ∧
    encode (.wor rd ra rb) = 0x21#8 ++ BitVec.ofNat 4 rd ++ BitVec.ofNat 4 ra ++ BitVec.ofNat 4 rb ++ 0#12 ∧
    encode (.wxor rd ra rb) = 0x22#8 ++ BitVec.ofNat 4 rd ++ BitVec.ofNat 4 ra ++ BitVec.ofNat 4 rb ++ 0#12 ∧
    encode (.wnot rd ra) = 0x23#8 ++ BitVec.ofNat 4 rd ++ BitVec.ofNat 4 ra ++ 0#16 ∧
    ∃ a o x n : Wide,
      exec (.wand rd ra rb) s = .next (answered (withReg s rd a) .ok 0) ∧
      exec (.wor rd ra rb) s = .next (answered (withReg s rd o) .ok 0) ∧
      exec (.wxor rd ra rb) s = .next (answered (withReg s rd x) .ok 0) ∧
      exec (.wnot rd ra) s = .next (answered (withReg s rd n) .ok 0) ∧
      (∀ k, k < 128 →
        a.getLsbD k = ((s.reg ra).getLsbD k && (s.reg rb).getLsbD k) ∧
        o.getLsbD k = ((s.reg ra).getLsbD k || (s.reg rb).getLsbD k) ∧
        x.getLsbD k = ((s.reg ra).getLsbD k ^^ (s.reg rb).getLsbD k) ∧
        n.getLsbD k = !(s.reg ra).getLsbD k) ∧
      n.toNat = 2 ^ 128 - 1 - (s.reg ra).toNat

/-- WSHL by the whole 128-bit register and WSHLI by the immediate: multiplication by `2^n` modulo `2^128`, 0 from 128
on, and the limb forms (R144, R146). -/
def Obligations.LeftShiftsByAnUnboundedCount : Prop :=
  ∀ (rd ra rb : Reg) (n : Nat) (s : State), s.faulted = false → n < 2 ^ 16 →
    encode (.wshl rd ra rb) = 0x24#8 ++ BitVec.ofNat 4 rd ++ BitVec.ofNat 4 ra ++ BitVec.ofNat 4 rb ++ 0#12 ∧
    encode (.wshli rd ra n) = 0x26#8 ++ BitVec.ofNat 4 rd ++ BitVec.ofNat 4 ra ++ BitVec.ofNat 16 n ∧
    exec (.wshl rd ra rb) s = .next (answered (withReg s rd
      (if (s.reg rb).toNat ≥ 128 then 0
        else BitVec.ofNat 128 ((s.reg ra).toNat * 2 ^ (s.reg rb).toNat % 2 ^ 128))) .ok 0) ∧
    exec (.wshl rd ra rb) s = .next (answered (withReg s rd (limbShl (s.reg ra) (s.reg rb).toNat)) .ok 0) ∧
    exec (.wshli rd ra n) s = .next (answered (withReg s rd
      (if n ≥ 128 then 0 else BitVec.ofNat 128 ((s.reg ra).toNat * 2 ^ n % 2 ^ 128))) .ok 0) ∧
    exec (.wshli rd ra n) s = .next (answered (withReg s rd (limbShl (s.reg ra) n)) .ok 0)

/-- WSHR by the whole 128-bit register and WSHRI by the immediate: floor division by `2^n`, 0 from 128 on, and the limb
forms (R145, R147). -/
def Obligations.RightShiftsByAnUnboundedCount : Prop :=
  ∀ (rd ra rb : Reg) (n : Nat) (s : State), s.faulted = false → n < 2 ^ 16 →
    encode (.wshr rd ra rb) = 0x25#8 ++ BitVec.ofNat 4 rd ++ BitVec.ofNat 4 ra ++ BitVec.ofNat 4 rb ++ 0#12 ∧
    encode (.wshri rd ra n) = 0x27#8 ++ BitVec.ofNat 4 rd ++ BitVec.ofNat 4 ra ++ BitVec.ofNat 16 n ∧
    exec (.wshr rd ra rb) s = .next (answered (withReg s rd
      (if (s.reg rb).toNat ≥ 128 then 0 else BitVec.ofNat 128 ((s.reg ra).toNat / 2 ^ (s.reg rb).toNat))) .ok 0) ∧
    exec (.wshr rd ra rb) s = .next (answered (withReg s rd (limbShr (s.reg ra) (s.reg rb).toNat)) .ok 0) ∧
    exec (.wshri rd ra n) s = .next (answered (withReg s rd
      (if n ≥ 128 then 0 else BitVec.ofNat 128 ((s.reg ra).toNat / 2 ^ n))) .ok 0) ∧
    exec (.wshri rd ra n) s = .next (answered (withReg s rd (limbShr (s.reg ra) n)) .ok 0)

/-- The source's testable properties, of the operations the commands compute with (R122): commutativity and
associativity of the sum, `a << 128 = 0`, the division identity, truncation, and `(2^64)/3` with `(2^64)%3`. -/
def Obligations.ArithmeticLaws : Prop :=
  (∀ a b, wideAdd a b = wideAdd b a) ∧ (∀ a b c, wideAdd (wideAdd a b) c = wideAdd a (wideAdd b c)) ∧
  (∀ a, wideShl a 128 = 0) ∧
  (∀ a b, b ≠ 0 → a = wideAdd (wideMul (wideDiv a b) b) (wideMod a b)) ∧
  (∀ a, (lowBits 8 a).toNat = a.toNat % 2 ^ 8 ∧ (lowBits 16 a).toNat = a.toNat % 2 ^ 16 ∧
    (lowBits 32 a).toNat = a.toNat % 2 ^ 32 ∧ (lowBits 64 a).toNat = a.toNat % 2 ^ 64) ∧
  wideDiv (BitVec.ofNat 128 (2 ^ 64)) 3 = 6148914691236517205 ∧ wideMod (BitVec.ofNat 128 (2 ^ 64)) 3 = 1 ∧
  ∀ (rd ra rb : Reg) (s : State), s.faulted = false →
    exec (.wadd rd ra rb) s = .next (answered (withReg s rd (wideAdd (s.reg ra) (s.reg rb))) .ok 0) ∧
    exec (.wmul rd ra rb) s = .next (answered (withReg s rd (wideMul (s.reg ra) (s.reg rb))) .ok 0)

/-! ## CRC-32 -/

/-- Every entry of the ROM is the one the eight iterations of R161 generate. -/
def Obligations.CrcTableIsGenerated : Prop := ∀ n, n < 256 → crcEntry n = lutOf n

/-- CRCINIT and CRCRD (R164, R168): the digest read changes nothing, and straight after CRCINIT it is 0. -/
def Obligations.CrcInitAndDigestRead : Prop :=
  ∀ s : State, s.faulted = false →
    encode .crcinit = 0x30#8 ++ 0#24 ∧
    exec .crcinit s = .next (answered { s with crcAcc := 0xFFFFFFFF } .ok 0) ∧
    encode .crcrd = 0x34#8 ++ 0#24 ∧
    exec .crcrd s = .next (answered s .ok (BitVec.ofNat 128 (s.crcAcc ^^^ 0xFFFFFFFF).toNat)) ∧
    ∀ t, exec .crcinit s = .next t → exec .crcrd t = .next (answered t .ok 0)

/-- CRCPB, CRCPR and CRCPK push their bytes one `step` of R163 at a time, over the generated table, and write nothing
else; out of range nothing is pushed (R165, R166, R167). -/
def Obligations.CrcPushesStepByStep : Prop :=
  ∀ (v off len : Nat) (s : State), s.faulted = false → v < 2 ^ 16 → off < 2 ^ 8 → len < 2 ^ 16 →
    encode (.crcpb v) = 0x31#8 ++ 0#8 ++ BitVec.ofNat 16 v ∧
    (v ≤ 255 → exec (.crcpb v) s =
      .next (answered { s with crcAcc := stepOf s.crcAcc (BitVec.ofNat 8 v) } .ok 0)) ∧
    (255 < v → exec (.crcpb v) s = .next (answered { s with ill := true } .illegalOperand 0)) ∧
    encode (.crcpr off len) = 0x32#8 ++ BitVec.ofNat 8 off ++ BitVec.ofNat 16 len ∧
    (off + len ≤ 256 → exec (.crcpr off len) s =
      .next (answered { s with crcAcc := (bytesAt s.fb off len).foldl stepOf s.crcAcc } .ok 0)) ∧
    (256 < off + len → exec (.crcpr off len) s = .next (answered { s with ill := true } .illegalOperand 0)) ∧
    encode .crcpk = 0x33#8 ++ 0#24 ∧
    exec .crcpk s =
      .next (answered { s with crcAcc := ((List.range 16).map (lane s.wdata)).foldl stepOf s.crcAcc } .ok 0)

/-- The three pushes are one operation at three widths (R169): after any push, legal in its state, the digest is the
`crc32` of the bytes pushed before it followed by its own bytes; and CRCINIT and reset leave the digest of no byte. -/
def Obligations.PushedBytesConcatenate : Prop :=
  (∀ (i : Instr) (s t : State) (before bs : List Byte), s.faulted = false → pushedBytes i s = some bs →
    s.crcAcc ^^^ 0xFFFFFFFF = digestOf before → exec i s = .next t →
    t.crcAcc ^^^ 0xFFFFFFFF = digestOf (before ++ bs)) ∧
  State.reset.crcAcc ^^^ 0xFFFFFFFF = digestOf [] ∧
  ∀ s t : State, s.faulted = false → exec .crcinit s = .next t → t.crcAcc ^^^ 0xFFFFFFFF = digestOf []

/-! ## Frame buffer -/

/-- FNEW: every byte zero but the tag of the kind; the frame it leaves is not valid; any other kind is refused (R178). -/
def Obligations.DefaultConstructionSetsOnlyTheTag : Prop :=
  ∀ (kind : Nat) (s : State), s.faulted = false → kind < 2 ^ 16 →
    encode (.fnew kind) = 0x40#8 ++ 0#8 ++ BitVec.ofNat 16 kind ∧
    (1 ≤ kind ∧ kind ≤ 4 → ∃ f : Frame,
      exec (.fnew kind) s = .next (answered { s with fb := f } .ok 0) ∧
      sumAt f 8 4 = (tagOfKind kind).toNat ∧ (∀ a, a < 256 → a < 8 ∨ 12 ≤ a → byteAt f a = 0) ∧
      ¬ CorrectlySealed f) ∧
    (kind = 0 ∨ 4 < kind → exec (.fnew kind) s = .next (answered { s with ill := true } .illegalOperand 0))

/-- FCHK tests the tag FB holds at that moment and nothing else, and writes no state (R176, R179, R264). -/
def Obligations.KindCheckLooksAtTheTagOnly : Prop :=
  ∀ (kind : Nat) (s : State), s.faulted = false → kind < 2 ^ 16 →
    encode (.fchk kind) = 0x41#8 ++ 0#8 ++ BitVec.ofNat 16 kind ∧
    (1 ≤ kind ∧ kind ≤ 4 → sumAt s.fb 8 4 = (tagOfKind kind).toNat → exec (.fchk kind) s = .next (answered s .ok 0)) ∧
    (1 ≤ kind ∧ kind ≤ 4 → sumAt s.fb 8 4 ≠ (tagOfKind kind).toNat →
      exec (.fchk kind) s = .next (answered s .typeMismatch 0)) ∧
    (kind = 0 ∨ 4 < kind → exec (.fchk kind) s = .next (answered { s with ill := true } .illegalOperand 0))

/-- FGET over the whole table of R177: a listed field answers the little-endian integer of its bytes, a typed view with
the wrong tag answers TYPE_MISMATCH, an unlisted triple ILLEGAL_OPERAND whatever the tag; only `ILL` may change
(R177, R180). -/
def Obligations.FieldReadsFollowTheTable : Prop :=
  ∀ (view fld idx : Nat) (s : State), s.faulted = false → view < 2 ^ 4 → fld < 2 ^ 4 → idx < 2 ^ 12 →
    encode (.fget view fld idx) =
      0x42#8 ++ 0#4 ++ BitVec.ofNat 4 view ++ BitVec.ofNat 4 fld ++ BitVec.ofNat 12 idx ∧
    (∀ off n, Listed view fld idx off n → ViewFits view s.fb →
      exec (.fget view fld idx) s = .next (answered s .ok (BitVec.ofNat 128 (sumAt s.fb off n)))) ∧
    (∀ off n, Listed view fld idx off n → ¬ ViewFits view s.fb →
      exec (.fget view fld idx) s = .next (answered s .typeMismatch 0)) ∧
    ((¬ ∃ off n, Listed view fld idx off n) →
      exec (.fget view fld idx) s = .next (answered { s with ill := true } .illegalOperand 0))

/-- FSET over the whole table of R177: the field's bytes become the low lanes of the operand bus and every other byte
reads as before, the checksum included; refused as FGET is (R69, R177, R181). -/
def Obligations.FieldWritesNeverSpill : Prop :=
  ∀ (view fld idx : Nat) (s : State), s.faulted = false → view < 2 ^ 4 → fld < 2 ^ 4 → idx < 2 ^ 12 →
    encode (.fset view fld idx) =
      0x43#8 ++ 0#4 ++ BitVec.ofNat 4 view ++ BitVec.ofNat 4 fld ++ BitVec.ofNat 12 idx ∧
    (∀ off n, Listed view fld idx off n → ViewFits view s.fb → ∃ f : Frame,
      exec (.fset view fld idx) s = .next (answered { s with fb := f } .ok 0) ∧
      (∀ k, k < n → byteAt f (off + k) = lane s.wdata k) ∧
      (∀ a, a < 256 → a < off ∨ off + n ≤ a → byteAt f a = byteAt s.fb a)) ∧
    (∀ off n, Listed view fld idx off n → ¬ ViewFits view s.fb →
      exec (.fset view fld idx) s = .next (answered s .typeMismatch 0)) ∧
    ((¬ ∃ off n, Listed view fld idx off n) →
      exec (.fset view fld idx) s = .next (answered { s with ill := true } .illegalOperand 0))

/-- A field read straight after it was written answers what was on the operand bus, cut to the field (R180, R181). -/
def Obligations.FieldReadsBackWhatWasWritten : Prop :=
  ∀ (view fld idx off n : Nat) (s : State), s.faulted = false → Listed view fld idx off n → ViewFits view s.fb →
    ∃ t, exec (.fset view fld idx) s = .next t ∧
      exec (.fget view fld idx) t = .next (answered t .ok (BitVec.ofNat 128 (s.wdata.toNat % 256 ^ n)))

/-- FVAL writes the CRC of the first 252 bytes into the checksum field and nothing else; FISV answers whether the stored
checksum is that CRC and writes no state; neither looks at `CRC.acc`, which stays (R184, R185). -/
def Obligations.ValidateWritesTheChecksum : Prop :=
  ∀ s : State, s.faulted = false →
    encode .fval = 0x44#8 ++ 0#24 ∧
    (∃ f : Frame, exec .fval s = .next (answered { s with fb := f } .ok 0) ∧
      (∀ a, a < 252 → byteAt f a = byteAt s.fb a) ∧
      sumAt f 252 4 = (digestOf (bytesAt s.fb 0 252)).toNat) ∧
    encode .fisv = 0x45#8 ++ 0#24 ∧
    (CorrectlySealed s.fb → exec .fisv s = .next (answered s .ok 1)) ∧
    (¬ CorrectlySealed s.fb → exec .fisv s = .next (answered s .ok 0))

/-- FISV straight after FVAL answers 1 for every content of FB; once any one byte of the validated frame differs, the
checksum bytes included, it answers 0 (R186). -/
def Obligations.ValidatedFrameDetectsEveryByteChange : Prop :=
  ∀ s t : State, s.faulted = false → exec .fval s = .next t →
    exec .fisv t = .next (answered t .ok 1) ∧
    ∀ (u : State) (a : Nat), u.faulted = false → a < 256 → byteAt u.fb a ≠ byteAt t.fb a →
      (∀ k, k < 256 → k ≠ a → byteAt u.fb k = byteAt t.fb k) →
      exec .fisv u = .next (answered u .ok 0)

/-! ## Staging and special registers -/

/-- PBW and PBR (R247, R248): lane `k` is `PB[16*idx + k]`; no other byte changes; a chunk above 14 is refused; a chunk
read straight after it was written answers what was written. -/
def Obligations.PayloadChunksMoveByLanes : Prop :=
  ∀ (idx : Nat) (s : State), s.faulted = false → idx < 2 ^ 16 →
    encode (.pbw idx) = 0x50#8 ++ 0#8 ++ BitVec.ofNat 16 idx ∧ encode (.pbr idx) = 0x51#8 ++ 0#8 ++ BitVec.ofNat 16 idx ∧
    (idx ≤ 14 → ∃ p : Payload,
      exec (.pbw idx) s = .next (answered { s with pb := p } .ok 0) ∧
      (∀ k, k < 16 → byteAt p (16 * idx + k) = lane s.wdata k) ∧
      (∀ a, a < 240 → a < 16 * idx ∨ 16 * idx + 16 ≤ a → byteAt p a = byteAt s.pb a) ∧
      exec (.pbr idx) (answered { s with pb := p } .ok 0) =
        .next (answered (answered { s with pb := p } .ok 0) .ok s.wdata)) ∧
    (idx ≤ 14 → ∃ v : Wide, exec (.pbr idx) s = .next (answered s .ok v) ∧
      ∀ k, k < 16 → lane v k = byteAt s.pb (16 * idx + k)) ∧
    (14 < idx →
      exec (.pbw idx) s = .next (answered { s with ill := true } .illegalOperand 0) ∧
      exec (.pbr idx) s = .next (answered { s with ill := true } .illegalOperand 0))

/-- LBLW and LBLR (R249, R250), in the same way over the two halves of LBL; the Builder's own label is not touched. -/
def Obligations.LabelHalvesMoveByLanes : Prop :=
  ∀ (half : Nat) (s : State), s.faulted = false → half < 2 ^ 16 →
    encode (.lblw half) = 0x52#8 ++ 0#8 ++ BitVec.ofNat 16 half ∧
    encode (.lblr half) = 0x53#8 ++ 0#8 ++ BitVec.ofNat 16 half ∧
    (half ≤ 1 → ∃ p : Label,
      exec (.lblw half) s = .next (answered { s with lbl := p } .ok 0) ∧
      (∀ k, k < 16 → byteAt p (16 * half + k) = lane s.wdata k) ∧
      (∀ a, a < 32 → a < 16 * half ∨ 16 * half + 16 ≤ a → byteAt p a = byteAt s.lbl a) ∧
      exec (.lblr half) (answered { s with lbl := p } .ok 0) =
        .next (answered (answered { s with lbl := p } .ok 0) .ok s.wdata)) ∧
    (half ≤ 1 → ∃ v : Wide, exec (.lblr half) s = .next (answered s .ok v) ∧
      ∀ k, k < 16 → lane v k = byteAt s.lbl (16 * half + k)) ∧
    (1 < half →
      exec (.lblw half) s = .next (answered { s with ill := true } .illegalOperand 0) ∧
      exec (.lblr half) s = .next (answered { s with ill := true } .illegalOperand 0))

/-- SRD: the special-register map of R33 with the STATUS bits of R34, zero-extended; reading clears nothing; a number
above 7 is refused (R246). -/
def Obligations.SpecialRegisterReads : Prop :=
  ∀ (rd : Reg) (n : Nat) (s : State), s.faulted = false → n < 2 ^ 16 →
    encode (.srd rd n) = 0x80#8 ++ BitVec.ofNat 4 rd ++ 0#4 ++ BitVec.ofNat 16 n ∧
    (∃ st : Wide, exec (.srd rd 0) s = .next (answered (withReg s rd st) .ok 0) ∧
      st.getLsbD 0 = s.b.wroteHead ∧ st.getLsbD 1 = s.b.wroteFinish ∧ st.getLsbD 2 = s.l.readhead ∧
      st.getLsbD 3 = s.l.readfinf ∧ st.getLsbD 4 = s.l.fault ∧ st.getLsbD 5 = s.l.started ∧
      st.getLsbD 6 = false ∧ st.getLsbD 7 = s.ill ∧ st.toNat < 256) ∧
    exec (.srd rd 1) s = .next (answered (withReg s rd s.b.index) .ok 0) ∧
    exec (.srd rd 2) s = .next (answered (withReg s rd s.b.total) .ok 0) ∧
    exec (.srd rd 3) s = .next (answered (withReg s rd s.l.count) .ok 0) ∧
    exec (.srd rd 4) s = .next (answered (withReg s rd s.l.index) .ok 0) ∧
    exec (.srd rd 5) s = .next (answered (withReg s rd s.l.size) .ok 0) ∧
    exec (.srd rd 6) s = .next (answered (withReg s rd s.l.dindex) .ok 0) ∧
    exec (.srd rd 7) s = .next (answered (withReg s rd 0x100) .ok 0) ∧
    (7 < n → exec (.srd rd n) s = .next (answered { s with ill := true } .illegalOperand 0))

/-! ## Builder -/

/-- BINIT (R201), in any state: the label from LBL, both counts 0, both flags clear, nothing emitted; and no other
command writes the Builder's label. -/
def Obligations.BuilderConstruction : Prop :=
  (∀ s : State, s.faulted = false →
    encode .binit = 0x60#8 ++ 0#24 ∧
    exec .binit s = .next (answered
      { s with b := { label := s.lbl, index := 0, total := 0, wroteHead := false, wroteFinish := false } } .ok 0)) ∧
  ∀ (i : Instr) (s t : State), exec i s = .next t → i ≠ .binit → t.b.label = s.b.label

/-- BWHEAD and BWHEADX (R205, R206): in any state a Head is handed over with sequence 0, the format version, the
label and the running or the given totals, every other byte zero but the checksum; `wrote_head` is set and the index
advances unless the Finish is written. -/
def Obligations.HeadCommandsWriteAHead : Prop :=
  ∀ (i : Instr) (ra rb : Reg) (count size : Wide) (s : State), s.faulted = false →
    (i = .bwhead ∧ count = s.b.index ∧ size = s.b.total) ∨
      (i = .bwheadx ra rb ∧ count = s.reg ra ∧ size = s.reg rb) →
    encode .bwhead = 0x61#8 ++ 0#24 ∧
    encode (.bwheadx ra rb) = 0x62#8 ++ 0#4 ++ BitVec.ofNat 4 ra ++ BitVec.ofNat 4 rb ++ 0#12 ∧
    ∃ (t : State) (F : Frame), exec i s = .next t ∧
      HandsOver s t F
        { s.b with wroteHead := true, index := if s.b.wroteFinish then s.b.index else s.b.index + 1 } ∧
      sumAt F 0 8 = 0 ∧ sumAt F 8 4 = cfg.tagHead.toNat ∧ sumAt F 12 4 = 0x100 ∧ sumAt F 16 16 = count.toNat ∧
      (∀ k, k < 32 → byteAt F (32 + k) = byteAt s.b.label k) ∧ sumAt F 64 16 = size.toNat ∧
      (∀ a, 80 ≤ a → a < 252 → byteAt F a = 0) ∧ CorrectlySealed F

/-- BWDATA (R202, R207): above 240 refused in every state; without an open guard a no-op; otherwise a Data frame with the
index's low 64 bits, the first `size` bytes of PB and zeros after, handed over; index plus one, total plus `size`,
both wrapping. -/
def Obligations.DataCommandWritesADataFrame : Prop :=
  ∀ (size : Nat) (s : State), s.faulted = false → size < 2 ^ 16 →
    encode (.bwdata size) = 0x63#8 ++ 0#8 ++ BitVec.ofNat 16 size ∧
    (240 < size → exec (.bwdata size) s = .next (answered { s with ill := true } .illegalOperand 0)) ∧
    (size ≤ 240 → ¬ (s.b.wroteHead = true ∧ s.b.wroteFinish = false) →
      exec (.bwdata size) s = .next (answered s .ok 0)) ∧
    (size ≤ 240 → s.b.wroteHead = true → s.b.wroteFinish = false → ∃ (t : State) (F : Frame),
      exec (.bwdata size) s = .next t ∧
      HandsOver s t F { s.b with index := s.b.index + 1, total := s.b.total + BitVec.ofNat 128 size } ∧
      sumAt F 0 8 = s.b.index.toNat % 2 ^ 64 ∧ sumAt F 8 4 = cfg.tagData.toNat ∧
      (∀ k, k < size → byteAt F (12 + k) = byteAt s.pb k) ∧ (∀ k, size ≤ k → k < 240 → byteAt F (12 + k) = 0) ∧
      CorrectlySealed F)

/-- BWCONT (R202, R208): a Continuation frame with the index and the label, every other byte zero but the checksum; the
index advances and the total stays. -/
def Obligations.ContinuationCommandWritesAContinuation : Prop :=
  ∀ s : State, s.faulted = false →
    encode .bwcont = 0x64#8 ++ 0#24 ∧
    (¬ (s.b.wroteHead = true ∧ s.b.wroteFinish = false) → exec .bwcont s = .next (answered s .ok 0)) ∧
    (s.b.wroteHead = true → s.b.wroteFinish = false → ∃ (t : State) (F : Frame),
      exec .bwcont s = .next t ∧ HandsOver s t F { s.b with index := s.b.index + 1 } ∧
      sumAt F 0 8 = s.b.index.toNat % 2 ^ 64 ∧ sumAt F 8 4 = cfg.tagCont.toNat ∧ sumAt F 12 4 = 0 ∧
      sumAt F 16 16 = s.b.index.toNat ∧ (∀ k, k < 32 → byteAt F (32 + k) = byteAt s.b.label k) ∧
      (∀ a, 64 ≤ a → a < 252 → byteAt F a = 0) ∧ CorrectlySealed F)

/-- BWFIN (R202, R209): a Finish frame whose count is the index plus one, wrapping, and whose size is the running total,
the hash zero; the index is not advanced and `wrote_finish` is set. -/
def Obligations.FinishCommandWritesAFinish : Prop :=
  ∀ s : State, s.faulted = false →
    encode .bwfin = 0x65#8 ++ 0#24 ∧
    (¬ (s.b.wroteHead = true ∧ s.b.wroteFinish = false) → exec .bwfin s = .next (answered s .ok 0)) ∧
    (s.b.wroteHead = true → s.b.wroteFinish = false → ∃ (t : State) (F : Frame),
      exec .bwfin s = .next t ∧ HandsOver s t F { s.b with wroteFinish := true } ∧
      sumAt F 0 8 = s.b.index.toNat % 2 ^ 64 ∧ sumAt F 8 4 = cfg.tagFinf.toNat ∧ sumAt F 12 4 = 0 ∧
      sumAt F 16 16 = (s.b.index.toNat + 1) % 2 ^ 128 ∧ (∀ k, k < 32 → byteAt F (32 + k) = 0) ∧
      sumAt F 64 16 = s.b.total.toNat ∧ (∀ a, 80 ≤ a → a < 252 → byteAt F a = 0) ∧ CorrectlySealed F)

/-- Every frame any command hands to the host is valid on its own, and its sequence is 0 for a Head and the low 64 bits
of the index for the other three (R204, R206, R212). -/
def Obligations.EveryEmittedFrameIsValid : Prop :=
  ∀ (i : Instr) (s t : State) (F : Frame), exec i s = .next t → t.host.txFrames = s.host.txFrames ++ [F] →
    CorrectlySealed F ∧ frameValid F = true ∧
    (sumAt F 8 4 = cfg.tagHead.toNat ∧ sumAt F 0 8 = 0 ∨
      sumAt F 8 4 ≠ cfg.tagHead.toNat ∧ sumAt F 0 8 = s.b.index.toNat % 2 ^ 64)

/-- The Builder and the Loader are independent (R11): a Builder command has the same effect whatever the Loader's record
and current frame are, which it leaves alone, and a Loader command whatever the Builder's record is. -/
def Obligations.BuilderAndLoaderAreIndependent : Prop :=
  (∀ (i : Instr) (s t : State) (l : Loader) (lf : Frame), isBuilder i → exec i s = .next t →
    exec i { s with l := l, lf := lf } = .next { t with l := l, lf := lf }) ∧
  (∀ (i : Instr) (s t : State) (b : Builder), isLoader i → exec i s = .next t →
    exec i { s with b := b } = .next { t with b := b })

/-! ## Loader -/

/-- LINIT (R221): all counts 0, the label and the current frame zero, all four flags clear; the source is not touched;
and no other command clears the fault or leaves the Done state. -/
def Obligations.LoaderConstruction : Prop :=
  (∀ s : State, s.faulted = false →
    encode .linit = 0x70#8 ++ 0#24 ∧
    exec .linit s = .next (answered { s with
      lf := Vector.replicate 256 0
      l := { count := 0, index := 0, size := 0, dindex := 0, label := Vector.replicate 32 0, readhead := false
             readfinf := false, fault := false, started := false } } .ok 0)) ∧
  ∀ (i : Instr) (s t : State), exec i s = .next t → i ≠ .linit →
    (s.l.fault = true → t.l.fault = true) ∧ (s.l.readfinf = true → t.l.readfinf = true)

/-- LNEXT (R222 to R230).  Done: nothing at all happens, no request is made, and the answer is 0.  Otherwise the index
advances except on the very first call, and one answer of the source is taken.  No frame: answer 0.  A frame: it
becomes the current frame, the sticky fault records a failed validation, and exactly one arm runs, valid or not; answer
1. -/
def Obligations.ReadNextFollowsTheStateMachine : Prop :=
  ∀ s : State, s.faulted = false →
    encode .lnext = 0x71#8 ++ 0#24 ∧
    (s.l.readfinf = true → exec .lnext s = .next (answered s .ok 0)) ∧
    (s.l.readfinf = false → rxAnswer s = none →
      exec .lnext s = .next (answered { s with
        l := { s.l with index := nextIndex s.l, started := true }
        host := { s.host with rxAnswers := s.host.rxAnswers.tail } } .ok 0)) ∧
    (s.l.readfinf = false → ∀ f : Frame, rxAnswer s = some f → ∃ bad : Bool, (bad = true ↔ ¬ Passes f (nextIndex s.l)) ∧
      ∃ l' : Loader,
        exec .lnext s = .next (answered { s with
          lf := f, l := l', host := { s.host with rxAnswers := s.host.rxAnswers.tail } } .ok 1) ∧
        l'.index = nextIndex s.l ∧ l'.started = true ∧ l'.fault = (s.l.fault || bad) ∧
        (sumAt f 8 4 = cfg.tagHead.toNat → s.l.readhead = false → sumAt f 12 4 ≤ 0x100 →
          (∀ k, k < 32 → byteAt l'.label k = byteAt f (32 + k)) ∧ l'.count.toNat = sumAt f 16 16 ∧
          l'.size.toNat = sumAt f 64 16 ∧ l'.readhead = true ∧ l'.readfinf = false ∧ l'.dindex = s.l.dindex) ∧
        (sumAt f 8 4 = cfg.tagFinf.toNat → s.l.readhead = true →
          l'.readfinf = true ∧ l'.readhead = true ∧ l'.label = s.l.label ∧ l'.dindex = s.l.dindex ∧
          (s.l.count = 0 ∧ s.l.size = 0 → l'.count.toNat = sumAt f 16 16 ∧ l'.size.toNat = sumAt f 64 16) ∧
          (¬ (s.l.count = 0 ∧ s.l.size = 0) → l'.count = s.l.count ∧ l'.size = s.l.size)) ∧
        (sumAt f 8 4 = cfg.tagData.toNat → s.l.readhead = true →
          l'.dindex = s.l.dindex + 240 ∧ l'.count = s.l.count ∧ l'.size = s.l.size ∧ l'.label = s.l.label ∧
          l'.readhead = true ∧ l'.readfinf = false) ∧
        (¬ (sumAt f 8 4 = cfg.tagHead.toNat ∧ s.l.readhead = false ∧ sumAt f 12 4 ≤ 0x100) →
          ¬ (sumAt f 8 4 = cfg.tagFinf.toNat ∧ s.l.readhead = true) →
          ¬ (sumAt f 8 4 = cfg.tagData.toNat ∧ s.l.readhead = true) →
          l' = { s.l with index := nextIndex s.l, started := true, fault := s.l.fault || bad }))

/-- LGDATA (R231): above 240 refused; on a Data frame PB takes the first `max` payload bytes with zeros after and the
answer is `max`; on any other frame PB is cleared and the answer is 0; nothing else changes. -/
def Obligations.DataExtractionFillsTheStaging : Prop :=
  ∀ (limit : Nat) (s : State), s.faulted = false → limit < 2 ^ 16 →
    encode (.lgdata limit) = 0x72#8 ++ 0#8 ++ BitVec.ofNat 16 limit ∧
    (240 < limit → exec (.lgdata limit) s = .next (answered { s with ill := true } .illegalOperand 0)) ∧
    (limit ≤ 240 → sumAt s.lf 8 4 = cfg.tagData.toNat → ∃ p : Payload,
      exec (.lgdata limit) s = .next (answered { s with pb := p } .ok (BitVec.ofNat 128 limit)) ∧
      (∀ k, k < limit → byteAt p k = byteAt s.lf (12 + k)) ∧ (∀ k, limit ≤ k → k < 240 → byteAt p k = 0)) ∧
    (limit ≤ 240 → sumAt s.lf 8 4 ≠ cfg.tagData.toNat → ∃ p : Payload,
      exec (.lgdata limit) s = .next (answered { s with pb := p } .ok 0) ∧ ∀ k, k < 240 → byteAt p k = 0)

/-- LCHK (R232, R267): NO_VERDICT until a Finish is recorded; then 1 exactly when no fault was flagged and the index
plus one, wrapping, is the recorded count; no state changes in any case. -/
def Obligations.VerdictNeedsAFinish : Prop :=
  ∀ s : State, s.faulted = false →
    encode .lchk = 0x73#8 ++ 0#24 ∧
    (s.l.readfinf = false → exec .lchk s = .next (answered s .noVerdict 0)) ∧
    (s.l.readfinf = true → s.l.fault = false → (s.l.index.toNat + 1) % 2 ^ 128 = s.l.count.toNat →
      exec .lchk s = .next (answered s .ok 1)) ∧
    (s.l.readfinf = true → (s.l.fault = true ∨ (s.l.index.toNat + 1) % 2 ^ 128 ≠ s.l.count.toNat) →
      exec .lchk s = .next (answered s .ok 0))

/-- LGETF copies the current frame into FB, byte for byte; LGLBL copies the captured label into LBL, which is all zero
before a Head is recorded (R233, R234). -/
def Obligations.LoaderCopiesOut : Prop :=
  ∀ s : State, s.faulted = false →
    encode .lgetf = 0x74#8 ++ 0#24 ∧ exec .lgetf s = .next (answered { s with fb := s.lf } .ok 0) ∧
    encode .lglbl = 0x75#8 ++ 0#24 ∧ exec .lglbl s = .next (answered { s with lbl := s.l.label } .ok 0) ∧
    (SequencerOrder s → s.l.readhead = false →
      exec .lglbl s = .next (answered { s with lbl := Vector.replicate 32 0 } .ok 0))

/-! ## From Builder to Loader -/

/-- A Data frame the Builder hands over, read by a Loader whose next index is the Builder's index (below `2^64`, R84),
raises no fault, advances the data-index by 240, and gives back through LGDATA exactly the bytes of PB it was built
from, with zeros after (R207, R212, R225, R228, R231). -/
def Obligations.BuiltDataFrameLoadsBack : Prop :=
  ∀ (size : Nat) (s t u : State) (F : Frame), exec (.bwdata size) s = .next t →
    t.host.txFrames = s.host.txFrames ++ [F] → s.b.index.toNat < 2 ^ 64 →
    u.faulted = false → u.l.readhead = true → u.l.readfinf = false → nextIndex u.l = s.b.index → rxAnswer u = some F →
    ∃ v x : State, exec .lnext u = .next v ∧ v.host.responses = u.host.responses ++ [⟨.ok, 1⟩] ∧
      v.l.fault = u.l.fault ∧ v.l.index = s.b.index ∧ v.l.dindex = u.l.dindex + 240 ∧
      exec (.lgdata size) v = .next x ∧
      x.host.responses = v.host.responses ++ [⟨.ok, BitVec.ofNat 128 size⟩] ∧
      (∀ k, k < size → byteAt x.pb k = byteAt s.pb k) ∧ ∀ k, size ≤ k → k < 240 → byteAt x.pb k = 0

/-- The Finish frame the Builder hands over, read in its place (index below `2^64`) by a Loader that has recorded a Head
and no fault, gives the verdict 1: both when the Head was provisional, whose zero counts the Finish replaces, and when
the Head already carried the true frame count (R209, R210, R212, R227, R232). -/
def Obligations.BuiltFinishGivesTheVerdict : Prop :=
  ∀ (s t u : State) (F : Frame), exec .bwfin s = .next t → t.host.txFrames = s.host.txFrames ++ [F] →
    s.b.index.toNat < 2 ^ 64 → u.faulted = false → u.l.readhead = true → u.l.readfinf = false →
    u.l.fault = false → nextIndex u.l = s.b.index → rxAnswer u = some F →
    (u.l.count = 0 ∧ u.l.size = 0) ∨ u.l.count = s.b.index + 1 →
    ∃ v : State, exec .lnext u = .next v ∧ exec .lchk v = .next (answered v .ok 1) ∧
      v.l.count = s.b.index + 1 ∧ (u.l.count = 0 ∧ u.l.size = 0 → v.l.size = s.b.total)
end

