-- ==== Sys2Proof/Laws/Bytes.lean ====
section
/-! SUPPORT. What the byte-buffer operations and the sink's operations do, said once each. -/

namespace Sys2Proof.Machine

theorem overlay_getD (l : List Byte) (off : Nat) (bs : List Byte) (i : Nat) (hi : i < l.length) :
    (overlay l off bs).getD i 0 = if off ≤ i ∧ i < off + bs.length then bs.getD (i - off) 0 else l.getD i 0 := by
  induction l generalizing off bs i with
  | nil => simp at hi
  | cons b rest ih =>
    cases off with
    | succ off =>
      cases i with
      | zero => simp [overlay]
      | succ i =>
        simp only [overlay, List.getD_cons_succ]
        rw [ih off bs i (by simpa using hi)]
        have : (i + 1 < off + 1 + bs.length) ↔ i < off + bs.length := by omega
        simp [this]
    | zero =>
      cases bs with
      | nil => simp [overlay]
      | cons v vs =>
        cases i with
        | zero => simp [overlay]
        | succ i =>
          simp only [overlay, List.getD_cons_succ]
          rw [ih 0 vs i (by simpa using hi)]
          simp

/-- Every byte after a write: the written byte inside the range, the old byte elsewhere (R63). -/
theorem byteAt_writeBytes {n : Nat} (buf : Buffer n) (off : Nat) (bs : List Byte) (i : Nat) (hi : i < n) :
    byteAt (writeBytes buf off bs) i =
      if off ≤ i ∧ i < off + bs.length then bs.getD (i - off) 0 else byteAt buf i := by
  have h : i < buf.toList.length := by simpa using hi
  simpa [byteAt, writeBytes] using overlay_getD buf.toList off bs i h

/-- A byte in bounds is the vector's element. -/
theorem byteAt_eq_getElem {n : Nat} (buf : Buffer n) (i : Nat) (hi : i < n) : byteAt buf i = buf[i] := by
  simp [byteAt, List.getD_eq_getElem?_getD, hi]

/-- Two buffers with the same bytes are the same buffer. -/
theorem buffer_ext {n : Nat} {a b : Buffer n} (h : ∀ i, i < n → byteAt a i = byteAt b i) : a = b := by
  ext1 i hi
  simpa [byteAt_eq_getElem, hi] using h i hi

/-- A range inside the buffer has its full length. -/
theorem readBytes_length {n : Nat} (buf : Buffer n) (off len : Nat) (h : off + len ≤ n) :
    (readBytes buf off len).length = len := by
  simp [readBytes]; omega

/-- The bytes of a range, one by one. -/
theorem readBytes_getD {n : Nat} (buf : Buffer n) (off len k : Nat) (hk : k < len) :
    (readBytes buf off len).getD k 0 = byteAt buf (off + k) := by
  simp [readBytes, byteAt, List.getD_eq_getElem?_getD, hk]

/-- `bytesOfNat n` gives `n` bytes. -/
@[simp] theorem bytesOfNat_length (n v : Nat) : (bytesOfNat n v).length = n := by
  induction n generalizing v with
  | zero => rfl
  | succ n ih => simp [bytesOfNat, ih]

/-- Byte `k` of a number is its `k`-th base-256 digit. -/
theorem bytesOfNat_getD (n v k : Nat) (hk : k < n) : (bytesOfNat n v).getD k 0 = BitVec.ofNat 8 (v / 256 ^ k) := by
  induction n generalizing v k with
  | zero => omega
  | succ n ih =>
    cases k with
    | zero => simp [bytesOfNat]
    | succ k =>
      simp only [bytesOfNat, List.getD_cons_succ]
      rw [ih _ _ (by omega), Nat.div_div_eq_div_mul, Nat.pow_succ, Nat.mul_comm]

/-- A number read from `n` bytes is below `256^n`. -/
theorem natOfBytes_lt (bs : List Byte) : natOfBytes bs < 256 ^ bs.length := by
  induction bs with
  | nil => simp [natOfBytes]
  | cons b bs ih =>
    have hb : b.toNat < 256 := b.isLt
    simp only [natOfBytes, List.length_cons, Nat.pow_succ]
    omega

/-- Reading back the low `n` bytes of a number gives it modulo `256^n`. -/
theorem natOfBytes_bytesOfNat (n v : Nat) : natOfBytes (bytesOfNat n v) = v % 256 ^ n := by
  induction n generalizing v with
  | zero => simp [bytesOfNat, natOfBytes, Nat.mod_one]
  | succ n ih =>
    simp only [bytesOfNat, natOfBytes, ih, BitVec.toNat_ofNat]
    rw [Nat.pow_succ' (m := 256)]
    exact Nat.mod_mul.symm

/-- Splitting a number into its bytes undoes reading it. -/
theorem bytesOfNat_natOfBytes (bs : List Byte) : bytesOfNat bs.length (natOfBytes bs) = bs := by
  induction bs with
  | nil => rfl
  | cons b bs ih =>
    have hb : b.toNat < 256 := b.isLt
    have h1 : (b.toNat + 256 * natOfBytes bs) / 256 = natOfBytes bs := by omega
    simp only [List.length_cons, natOfBytes, bytesOfNat, h1, ih]
    congr 1
    apply BitVec.eq_of_toNat_eq
    simp [Nat.add_mod, Nat.mod_eq_of_lt hb]

/-! ## The sink -/

theorem cellsFrom_mem (a : Nat) (bs : List Byte) (c : Host.Cell) (h : c ∈ cellsFrom a bs) :
    a ≤ c.1 ∧ c.1 < a + bs.length := by
  induction bs generalizing a with
  | nil => simp [cellsFrom] at h
  | cons v vs ih =>
    rcases List.mem_cons.mp h with rfl | h
    · simp
    · have := ih (a + 1) h
      simp only [List.length_cons]
      omega

theorem cellsFrom_wf (a : Nat) (bs : List Byte) : ((cellsFrom a bs).map Prod.fst).Pairwise (· < ·) := by
  induction bs generalizing a with
  | nil => simp [cellsFrom]
  | cons v vs ih =>
    simp only [cellsFrom, List.map_cons, List.pairwise_cons]
    refine ⟨fun x hx => ?_, ih (a + 1)⟩
    obtain ⟨c, hc, rfl⟩ := List.mem_map.mp hx
    have := cellsFrom_mem (a + 1) vs c hc
    omega

/-- Storing keeps the canonical form. -/
theorem Memory.store_wf (m : Memory) (a : Nat) (bs : List Byte) (h : m.wf) : (m.store a bs).wf := by
  unfold Memory.wf at *
  simp only [Memory.store, List.map_append]
  have hs : ∀ p : Host.Cell → Bool, ((m.cells.filter p).map Prod.fst).Pairwise (· < ·) := fun p =>
    h.sublist (List.filter_sublist.map _)
  refine List.pairwise_append.mpr ⟨List.pairwise_append.mpr ⟨hs _, cellsFrom_wf a bs, ?_⟩, hs _, ?_⟩
  · intro x hx y hy
    obtain ⟨c, hc, rfl⟩ := List.mem_map.mp hx
    obtain ⟨d, hd, rfl⟩ := List.mem_map.mp hy
    have h1 := (List.mem_filter.mp hc).2
    have h2 := cellsFrom_mem a bs d hd
    simp at h1
    omega
  · intro x hx y hy
    obtain ⟨d, hd, rfl⟩ := List.mem_map.mp hy
    have h2 := (List.mem_filter.mp hd).2
    simp at h2
    rcases List.mem_append.mp hx with hx | hx
    · obtain ⟨c, hc, rfl⟩ := List.mem_map.mp hx
      have h1 := (List.mem_filter.mp hc).2
      simp at h1
      omega
    · obtain ⟨c, hc, rfl⟩ := List.mem_map.mp hx
      have h1 := cellsFrom_mem a bs c hc
      omega

theorem cellsFrom_find (a : Nat) (bs : List Byte) (x : Nat) :
    ((cellsFrom a bs).find? fun c => c.1 == x).map Prod.snd =
      if a ≤ x ∧ x < a + bs.length then some (bs.getD (x - a) 0) else none := by
  induction bs generalizing a with
  | nil => simp [cellsFrom]
  | cons v vs ih =>
    by_cases hx : a = x
    · subst hx; simp [cellsFrom]
    · have hne : (a == x) = false := by simp [hx]
      simp only [cellsFrom, List.find?_cons, hne]
      rw [ih (a + 1)]
      by_cases h : a + 1 ≤ x ∧ x < a + 1 + vs.length
      · rw [if_pos h, if_pos (by simp only [List.length_cons]; omega)]
        obtain ⟨k, hk⟩ : ∃ k, x - a = k + 1 := ⟨x - a - 1, by omega⟩
        have : x - (a + 1) = k := by omega
        rw [hk, this, List.getD_cons_succ]
      · rw [if_neg h, if_neg (by simp only [List.length_cons]; omega)]

theorem find_filter_of_imp (cs : List Host.Cell) (p : Host.Cell → Bool) (x : Nat)
    (h : ∀ c : Host.Cell, c.1 = x → p c = true) :
    (cs.filter p).find? (fun c => c.1 == x) = cs.find? (fun c => c.1 == x) := by
  rw [List.find?_filter]
  congr 1
  funext c
  by_cases hc : c.1 = x <;> simp [hc, h]

theorem find_filter_of_not (cs : List Host.Cell) (p : Host.Cell → Bool) (x : Nat)
    (h : ∀ c : Host.Cell, c.1 = x → p c = false) : (cs.filter p).find? (fun c => c.1 == x) = none := by
  rw [List.find?_filter, List.find?_eq_none]
  intro c _
  by_cases hc : c.1 = x <;> simp [hc, h]

/-- Every offset of the sink after a store: the stored byte inside the range, the old contents elsewhere (R79). -/
theorem Memory.read_store (m : Memory) (a : Nat) (bs : List Byte) (x : Nat) :
    (m.store a bs).read x = if a ≤ x ∧ x < a + bs.length then some (bs.getD (x - a) 0) else m.read x := by
  have hmid := cellsFrom_find a bs x
  simp only [Memory.read, Memory.store, List.find?_append, Option.map_or]
  rw [hmid]
  by_cases h1 : x < a
  · rw [find_filter_of_imp m.cells _ x (by intro c hc; simp; omega),
      find_filter_of_not m.cells (fun c => decide (a + bs.length ≤ c.1)) x (by intro c hc; simp; omega),
      if_neg (by omega), if_neg (by omega)]
    simp
  · rw [find_filter_of_not m.cells (fun c => decide (c.1 < a)) x (by intro c hc; simp; omega)]
    by_cases h2 : x < a + bs.length
    · rw [if_pos ⟨by omega, h2⟩, if_pos ⟨by omega, h2⟩]
      simp
    · rw [if_neg (by omega), if_neg (by omega), find_filter_of_imp m.cells _ x (by intro c hc; simp; omega)]
      simp

end Sys2Proof.Machine
end

