-- ==== Sys2Proof/Laws/Config.lean ====
section
/-! SUPPORT. The value of every parameter of spec/00_scope.md R7, one lemma per field. -/

namespace Sys2Proof

@[simp] theorem cfg_wideBits : cfg.wideBits = 128 := rfl
@[simp] theorem cfg_limbBits : cfg.limbBits = 64 := rfl
@[simp] theorem cfg_limbs : cfg.limbs = 2 := rfl
@[simp] theorem cfg_nreg : cfg.nreg = 16 := rfl
@[simp] theorem cfg_frameBytes : cfg.frameBytes = 256 := rfl
@[simp] theorem cfg_payloadBytes : cfg.payloadBytes = 240 := rfl
@[simp] theorem cfg_payloadOff : cfg.payloadOff = 12 := rfl
@[simp] theorem cfg_cksumOff : cfg.cksumOff = 252 := rfl
@[simp] theorem cfg_labelBytes : cfg.labelBytes = 32 := rfl
@[simp] theorem cfg_cmdBits : cfg.cmdBits = 32 := rfl
@[simp] theorem cfg_busBits : cfg.busBits = 128 := rfl
@[simp] theorem cfg_crcPoly : cfg.crcPoly = 0xEDB88320 := rfl
@[simp] theorem cfg_crcInit : cfg.crcInit = 0xFFFFFFFF := rfl
@[simp] theorem cfg_crcXorOut : cfg.crcXorOut = 0xFFFFFFFF := rfl
@[simp] theorem cfg_formatVersion : cfg.formatVersion = 0x00000100 := rfl
@[simp] theorem cfg_supportedVersion : cfg.supportedVersion = 0x00000100 := rfl
@[simp] theorem cfg_littleEndian : cfg.littleEndian = true := rfl
@[simp] theorem cfg_tagHead : cfg.tagHead = 0x44414548 := rfl
@[simp] theorem cfg_tagFinf : cfg.tagFinf = 0x464E4946 := rfl
@[simp] theorem cfg_tagData : cfg.tagData = 0x41544144 := rfl
@[simp] theorem cfg_tagCont : cfg.tagCont = 0x544E4F43 := rfl
@[simp] theorem cfg_tagMeta : cfg.tagMeta = 0x4154454D := rfl

/-- The five tags are pairwise distinct, the only property of them any rule uses (R7). -/
theorem tags_distinct : [cfg.tagHead, cfg.tagFinf, cfg.tagData, cfg.tagCont, cfg.tagMeta].Nodup := by decide

end Sys2Proof
end

