-- ==== Sys2Proof/Laws/Crc.lean ====
section
/-! SUPPORT. How pushes into the CRC accumulator compose (spec/41_crc32.md R163, R169). -/

namespace Sys2Proof.Machine

@[simp] theorem crcPush_nil (acc : Word32) : crcPush acc [] = acc := rfl

@[simp] theorem crcPush_cons (acc : Word32) (b : Byte) (bs : List Byte) :
    crcPush acc (b :: bs) = crcPush (crcStep acc b) bs := rfl

/-- Pushing one string after another is pushing the two joined (R169). -/
theorem crcPush_append (acc : Word32) (as bs : List Byte) : crcPush acc (as ++ bs) = crcPush (crcPush acc as) bs :=
  List.foldl_append

/-- No byte at all has digest 0 (R163). -/
theorem crc32_nil : crc32 [] = 0 := rfl

end Sys2Proof.Machine
end

