-- ==== Sys2Proof/Laws/State.lean ====
section
/-! SUPPORT. One lemma per field per update of State, each true by definition, so that no later proof unfolds a record
update. -/

namespace Sys2Proof.Machine.State

variable (s : State)

/-! `setReg` -/

@[simp] theorem setReg_w (r : Reg) (v : Wide) : (s.setReg r v).w = s.w.set r v := rfl
@[simp] theorem setReg_crcAcc (r : Reg) (v : Wide) : (s.setReg r v).crcAcc = s.crcAcc := rfl
@[simp] theorem setReg_fb (r : Reg) (v : Wide) : (s.setReg r v).fb = s.fb := rfl
@[simp] theorem setReg_lf (r : Reg) (v : Wide) : (s.setReg r v).lf = s.lf := rfl
@[simp] theorem setReg_pb (r : Reg) (v : Wide) : (s.setReg r v).pb = s.pb := rfl
@[simp] theorem setReg_lbl (r : Reg) (v : Wide) : (s.setReg r v).lbl = s.lbl := rfl
@[simp] theorem setReg_b (r : Reg) (v : Wide) : (s.setReg r v).b = s.b := rfl
@[simp] theorem setReg_l (r : Reg) (v : Wide) : (s.setReg r v).l = s.l := rfl
@[simp] theorem setReg_faulted (r : Reg) (v : Wide) : (s.setReg r v).faulted = s.faulted := rfl
@[simp] theorem setReg_ill (r : Reg) (v : Wide) : (s.setReg r v).ill = s.ill := rfl
@[simp] theorem setReg_wdata (r : Reg) (v : Wide) : (s.setReg r v).wdata = s.wdata := rfl
@[simp] theorem setReg_host (r : Reg) (v : Wide) : (s.setReg r v).host = s.host := rfl

/-! `setCrc` -/

@[simp] theorem setCrc_w (v : Word32) : (s.setCrc v).w = s.w := rfl
@[simp] theorem setCrc_crcAcc (v : Word32) : (s.setCrc v).crcAcc = v := rfl
@[simp] theorem setCrc_fb (v : Word32) : (s.setCrc v).fb = s.fb := rfl
@[simp] theorem setCrc_lf (v : Word32) : (s.setCrc v).lf = s.lf := rfl
@[simp] theorem setCrc_pb (v : Word32) : (s.setCrc v).pb = s.pb := rfl
@[simp] theorem setCrc_lbl (v : Word32) : (s.setCrc v).lbl = s.lbl := rfl
@[simp] theorem setCrc_b (v : Word32) : (s.setCrc v).b = s.b := rfl
@[simp] theorem setCrc_l (v : Word32) : (s.setCrc v).l = s.l := rfl
@[simp] theorem setCrc_faulted (v : Word32) : (s.setCrc v).faulted = s.faulted := rfl
@[simp] theorem setCrc_ill (v : Word32) : (s.setCrc v).ill = s.ill := rfl
@[simp] theorem setCrc_wdata (v : Word32) : (s.setCrc v).wdata = s.wdata := rfl
@[simp] theorem setCrc_host (v : Word32) : (s.setCrc v).host = s.host := rfl
@[simp] theorem setCrc_reg (v : Word32) (r : Reg) : (s.setCrc v).reg r = s.reg r := rfl

/-! `setFb` -/

@[simp] theorem setFb_w (f : Frame) : (s.setFb f).w = s.w := rfl
@[simp] theorem setFb_crcAcc (f : Frame) : (s.setFb f).crcAcc = s.crcAcc := rfl
@[simp] theorem setFb_fb (f : Frame) : (s.setFb f).fb = f := rfl
@[simp] theorem setFb_lf (f : Frame) : (s.setFb f).lf = s.lf := rfl
@[simp] theorem setFb_pb (f : Frame) : (s.setFb f).pb = s.pb := rfl
@[simp] theorem setFb_lbl (f : Frame) : (s.setFb f).lbl = s.lbl := rfl
@[simp] theorem setFb_b (f : Frame) : (s.setFb f).b = s.b := rfl
@[simp] theorem setFb_l (f : Frame) : (s.setFb f).l = s.l := rfl
@[simp] theorem setFb_faulted (f : Frame) : (s.setFb f).faulted = s.faulted := rfl
@[simp] theorem setFb_ill (f : Frame) : (s.setFb f).ill = s.ill := rfl
@[simp] theorem setFb_wdata (f : Frame) : (s.setFb f).wdata = s.wdata := rfl
@[simp] theorem setFb_host (f : Frame) : (s.setFb f).host = s.host := rfl
@[simp] theorem setFb_reg (f : Frame) (r : Reg) : (s.setFb f).reg r = s.reg r := rfl

/-! `setLf` -/

@[simp] theorem setLf_w (f : Frame) : (s.setLf f).w = s.w := rfl
@[simp] theorem setLf_crcAcc (f : Frame) : (s.setLf f).crcAcc = s.crcAcc := rfl
@[simp] theorem setLf_fb (f : Frame) : (s.setLf f).fb = s.fb := rfl
@[simp] theorem setLf_lf (f : Frame) : (s.setLf f).lf = f := rfl
@[simp] theorem setLf_pb (f : Frame) : (s.setLf f).pb = s.pb := rfl
@[simp] theorem setLf_lbl (f : Frame) : (s.setLf f).lbl = s.lbl := rfl
@[simp] theorem setLf_b (f : Frame) : (s.setLf f).b = s.b := rfl
@[simp] theorem setLf_l (f : Frame) : (s.setLf f).l = s.l := rfl
@[simp] theorem setLf_faulted (f : Frame) : (s.setLf f).faulted = s.faulted := rfl
@[simp] theorem setLf_ill (f : Frame) : (s.setLf f).ill = s.ill := rfl
@[simp] theorem setLf_wdata (f : Frame) : (s.setLf f).wdata = s.wdata := rfl
@[simp] theorem setLf_host (f : Frame) : (s.setLf f).host = s.host := rfl
@[simp] theorem setLf_reg (f : Frame) (r : Reg) : (s.setLf f).reg r = s.reg r := rfl

/-! `setPb` -/

@[simp] theorem setPb_w (p : Payload) : (s.setPb p).w = s.w := rfl
@[simp] theorem setPb_crcAcc (p : Payload) : (s.setPb p).crcAcc = s.crcAcc := rfl
@[simp] theorem setPb_fb (p : Payload) : (s.setPb p).fb = s.fb := rfl
@[simp] theorem setPb_lf (p : Payload) : (s.setPb p).lf = s.lf := rfl
@[simp] theorem setPb_pb (p : Payload) : (s.setPb p).pb = p := rfl
@[simp] theorem setPb_lbl (p : Payload) : (s.setPb p).lbl = s.lbl := rfl
@[simp] theorem setPb_b (p : Payload) : (s.setPb p).b = s.b := rfl
@[simp] theorem setPb_l (p : Payload) : (s.setPb p).l = s.l := rfl
@[simp] theorem setPb_faulted (p : Payload) : (s.setPb p).faulted = s.faulted := rfl
@[simp] theorem setPb_ill (p : Payload) : (s.setPb p).ill = s.ill := rfl
@[simp] theorem setPb_wdata (p : Payload) : (s.setPb p).wdata = s.wdata := rfl
@[simp] theorem setPb_host (p : Payload) : (s.setPb p).host = s.host := rfl
@[simp] theorem setPb_reg (p : Payload) (r : Reg) : (s.setPb p).reg r = s.reg r := rfl

/-! `setLbl` -/

@[simp] theorem setLbl_w (v : Label) : (s.setLbl v).w = s.w := rfl
@[simp] theorem setLbl_crcAcc (v : Label) : (s.setLbl v).crcAcc = s.crcAcc := rfl
@[simp] theorem setLbl_fb (v : Label) : (s.setLbl v).fb = s.fb := rfl
@[simp] theorem setLbl_lf (v : Label) : (s.setLbl v).lf = s.lf := rfl
@[simp] theorem setLbl_pb (v : Label) : (s.setLbl v).pb = s.pb := rfl
@[simp] theorem setLbl_lbl (v : Label) : (s.setLbl v).lbl = v := rfl
@[simp] theorem setLbl_b (v : Label) : (s.setLbl v).b = s.b := rfl
@[simp] theorem setLbl_l (v : Label) : (s.setLbl v).l = s.l := rfl
@[simp] theorem setLbl_faulted (v : Label) : (s.setLbl v).faulted = s.faulted := rfl
@[simp] theorem setLbl_ill (v : Label) : (s.setLbl v).ill = s.ill := rfl
@[simp] theorem setLbl_wdata (v : Label) : (s.setLbl v).wdata = s.wdata := rfl
@[simp] theorem setLbl_host (v : Label) : (s.setLbl v).host = s.host := rfl
@[simp] theorem setLbl_reg (v : Label) (r : Reg) : (s.setLbl v).reg r = s.reg r := rfl

/-! `setB` -/

@[simp] theorem setB_w (b : Builder) : (s.setB b).w = s.w := rfl
@[simp] theorem setB_crcAcc (b : Builder) : (s.setB b).crcAcc = s.crcAcc := rfl
@[simp] theorem setB_fb (b : Builder) : (s.setB b).fb = s.fb := rfl
@[simp] theorem setB_lf (b : Builder) : (s.setB b).lf = s.lf := rfl
@[simp] theorem setB_pb (b : Builder) : (s.setB b).pb = s.pb := rfl
@[simp] theorem setB_lbl (b : Builder) : (s.setB b).lbl = s.lbl := rfl
@[simp] theorem setB_b (b : Builder) : (s.setB b).b = b := rfl
@[simp] theorem setB_l (b : Builder) : (s.setB b).l = s.l := rfl
@[simp] theorem setB_faulted (b : Builder) : (s.setB b).faulted = s.faulted := rfl
@[simp] theorem setB_ill (b : Builder) : (s.setB b).ill = s.ill := rfl
@[simp] theorem setB_wdata (b : Builder) : (s.setB b).wdata = s.wdata := rfl
@[simp] theorem setB_host (b : Builder) : (s.setB b).host = s.host := rfl
@[simp] theorem setB_reg (b : Builder) (r : Reg) : (s.setB b).reg r = s.reg r := rfl

/-! `setL` -/

@[simp] theorem setL_w (l : Loader) : (s.setL l).w = s.w := rfl
@[simp] theorem setL_crcAcc (l : Loader) : (s.setL l).crcAcc = s.crcAcc := rfl
@[simp] theorem setL_fb (l : Loader) : (s.setL l).fb = s.fb := rfl
@[simp] theorem setL_lf (l : Loader) : (s.setL l).lf = s.lf := rfl
@[simp] theorem setL_pb (l : Loader) : (s.setL l).pb = s.pb := rfl
@[simp] theorem setL_lbl (l : Loader) : (s.setL l).lbl = s.lbl := rfl
@[simp] theorem setL_b (l : Loader) : (s.setL l).b = s.b := rfl
@[simp] theorem setL_l (l : Loader) : (s.setL l).l = l := rfl
@[simp] theorem setL_faulted (l : Loader) : (s.setL l).faulted = s.faulted := rfl
@[simp] theorem setL_ill (l : Loader) : (s.setL l).ill = s.ill := rfl
@[simp] theorem setL_wdata (l : Loader) : (s.setL l).wdata = s.wdata := rfl
@[simp] theorem setL_host (l : Loader) : (s.setL l).host = s.host := rfl
@[simp] theorem setL_reg (l : Loader) (r : Reg) : (s.setL l).reg r = s.reg r := rfl

/-! `latchFault` -/

@[simp] theorem latchFault_w : (s.latchFault).w = s.w := rfl
@[simp] theorem latchFault_crcAcc : (s.latchFault).crcAcc = s.crcAcc := rfl
@[simp] theorem latchFault_fb : (s.latchFault).fb = s.fb := rfl
@[simp] theorem latchFault_lf : (s.latchFault).lf = s.lf := rfl
@[simp] theorem latchFault_pb : (s.latchFault).pb = s.pb := rfl
@[simp] theorem latchFault_lbl : (s.latchFault).lbl = s.lbl := rfl
@[simp] theorem latchFault_b : (s.latchFault).b = s.b := rfl
@[simp] theorem latchFault_l : (s.latchFault).l = s.l := rfl
@[simp] theorem latchFault_faulted : (s.latchFault).faulted = true := rfl
@[simp] theorem latchFault_ill : (s.latchFault).ill = s.ill := rfl
@[simp] theorem latchFault_wdata : (s.latchFault).wdata = s.wdata := rfl
@[simp] theorem latchFault_host : (s.latchFault).host = s.host := rfl
@[simp] theorem latchFault_reg (r : Reg) : (s.latchFault).reg r = s.reg r := rfl

/-! `markIll` -/

@[simp] theorem markIll_w : (s.markIll).w = s.w := rfl
@[simp] theorem markIll_crcAcc : (s.markIll).crcAcc = s.crcAcc := rfl
@[simp] theorem markIll_fb : (s.markIll).fb = s.fb := rfl
@[simp] theorem markIll_lf : (s.markIll).lf = s.lf := rfl
@[simp] theorem markIll_pb : (s.markIll).pb = s.pb := rfl
@[simp] theorem markIll_lbl : (s.markIll).lbl = s.lbl := rfl
@[simp] theorem markIll_b : (s.markIll).b = s.b := rfl
@[simp] theorem markIll_l : (s.markIll).l = s.l := rfl
@[simp] theorem markIll_faulted : (s.markIll).faulted = s.faulted := rfl
@[simp] theorem markIll_ill : (s.markIll).ill = true := rfl
@[simp] theorem markIll_wdata : (s.markIll).wdata = s.wdata := rfl
@[simp] theorem markIll_host : (s.markIll).host = s.host := rfl
@[simp] theorem markIll_reg (r : Reg) : (s.markIll).reg r = s.reg r := rfl

/-! `setWdata` -/

@[simp] theorem setWdata_w (v : Wide) : (s.setWdata v).w = s.w := rfl
@[simp] theorem setWdata_crcAcc (v : Wide) : (s.setWdata v).crcAcc = s.crcAcc := rfl
@[simp] theorem setWdata_fb (v : Wide) : (s.setWdata v).fb = s.fb := rfl
@[simp] theorem setWdata_lf (v : Wide) : (s.setWdata v).lf = s.lf := rfl
@[simp] theorem setWdata_pb (v : Wide) : (s.setWdata v).pb = s.pb := rfl
@[simp] theorem setWdata_lbl (v : Wide) : (s.setWdata v).lbl = s.lbl := rfl
@[simp] theorem setWdata_b (v : Wide) : (s.setWdata v).b = s.b := rfl
@[simp] theorem setWdata_l (v : Wide) : (s.setWdata v).l = s.l := rfl
@[simp] theorem setWdata_faulted (v : Wide) : (s.setWdata v).faulted = s.faulted := rfl
@[simp] theorem setWdata_ill (v : Wide) : (s.setWdata v).ill = s.ill := rfl
@[simp] theorem setWdata_wdata (v : Wide) : (s.setWdata v).wdata = v := rfl
@[simp] theorem setWdata_host (v : Wide) : (s.setWdata v).host = s.host := rfl
@[simp] theorem setWdata_reg (v : Wide) (r : Reg) : (s.setWdata v).reg r = s.reg r := rfl

/-! `setHost` -/

@[simp] theorem setHost_w (h : HostSide) : (s.setHost h).w = s.w := rfl
@[simp] theorem setHost_crcAcc (h : HostSide) : (s.setHost h).crcAcc = s.crcAcc := rfl
@[simp] theorem setHost_fb (h : HostSide) : (s.setHost h).fb = s.fb := rfl
@[simp] theorem setHost_lf (h : HostSide) : (s.setHost h).lf = s.lf := rfl
@[simp] theorem setHost_pb (h : HostSide) : (s.setHost h).pb = s.pb := rfl
@[simp] theorem setHost_lbl (h : HostSide) : (s.setHost h).lbl = s.lbl := rfl
@[simp] theorem setHost_b (h : HostSide) : (s.setHost h).b = s.b := rfl
@[simp] theorem setHost_l (h : HostSide) : (s.setHost h).l = s.l := rfl
@[simp] theorem setHost_faulted (h : HostSide) : (s.setHost h).faulted = s.faulted := rfl
@[simp] theorem setHost_ill (h : HostSide) : (s.setHost h).ill = s.ill := rfl
@[simp] theorem setHost_wdata (h : HostSide) : (s.setHost h).wdata = s.wdata := rfl
@[simp] theorem setHost_host (h : HostSide) : (s.setHost h).host = h := rfl
@[simp] theorem setHost_reg (h : HostSide) (r : Reg) : (s.setHost h).reg r = s.reg r := rfl

/-! `answer` and `respond` -/

@[simp] theorem answer_w (st : Status) (v : Wide) : (s.answer st v).w = s.w := rfl
@[simp] theorem answer_crcAcc (st : Status) (v : Wide) : (s.answer st v).crcAcc = s.crcAcc := rfl
@[simp] theorem answer_fb (st : Status) (v : Wide) : (s.answer st v).fb = s.fb := rfl
@[simp] theorem answer_lf (st : Status) (v : Wide) : (s.answer st v).lf = s.lf := rfl
@[simp] theorem answer_pb (st : Status) (v : Wide) : (s.answer st v).pb = s.pb := rfl
@[simp] theorem answer_lbl (st : Status) (v : Wide) : (s.answer st v).lbl = s.lbl := rfl
@[simp] theorem answer_b (st : Status) (v : Wide) : (s.answer st v).b = s.b := rfl
@[simp] theorem answer_l (st : Status) (v : Wide) : (s.answer st v).l = s.l := rfl
@[simp] theorem answer_faulted (st : Status) (v : Wide) : (s.answer st v).faulted = s.faulted := rfl
@[simp] theorem answer_ill (st : Status) (v : Wide) : (s.answer st v).ill = s.ill := rfl
@[simp] theorem answer_wdata (st : Status) (v : Wide) : (s.answer st v).wdata = s.wdata := rfl
@[simp] theorem answer_reg (st : Status) (v : Wide) (r : Reg) : (s.answer st v).reg r = s.reg r := rfl
@[simp] theorem answer_responses (st : Status) (v : Wide) : (s.answer st v).host.responses = s.host.responses ++ [⟨st, v⟩] := rfl
@[simp] theorem answer_actions (st : Status) (v : Wide) : (s.answer st v).host.actions = s.host.actions := rfl
@[simp] theorem answer_txAnswers (st : Status) (v : Wide) : (s.answer st v).host.txAnswers = s.host.txAnswers := rfl
@[simp] theorem answer_rxAnswers (st : Status) (v : Wide) : (s.answer st v).host.rxAnswers = s.host.rxAnswers := rfl
@[simp] theorem answer_txFrames (st : Status) (v : Wide) : (s.answer st v).host.txFrames = s.host.txFrames := rfl
@[simp] theorem answer_sink (st : Status) (v : Wide) : (s.answer st v).host.sink = s.host.sink := rfl
@[simp] theorem answer_sinkPos (st : Status) (v : Wide) : (s.answer st v).host.sinkPos = s.host.sinkPos := rfl

@[simp] theorem respond_w (v : Wide) : (s.respond v).w = s.w := rfl
@[simp] theorem respond_crcAcc (v : Wide) : (s.respond v).crcAcc = s.crcAcc := rfl
@[simp] theorem respond_fb (v : Wide) : (s.respond v).fb = s.fb := rfl
@[simp] theorem respond_lf (v : Wide) : (s.respond v).lf = s.lf := rfl
@[simp] theorem respond_pb (v : Wide) : (s.respond v).pb = s.pb := rfl
@[simp] theorem respond_lbl (v : Wide) : (s.respond v).lbl = s.lbl := rfl
@[simp] theorem respond_b (v : Wide) : (s.respond v).b = s.b := rfl
@[simp] theorem respond_l (v : Wide) : (s.respond v).l = s.l := rfl
@[simp] theorem respond_faulted (v : Wide) : (s.respond v).faulted = s.faulted := rfl
@[simp] theorem respond_ill (v : Wide) : (s.respond v).ill = s.ill := rfl
@[simp] theorem respond_wdata (v : Wide) : (s.respond v).wdata = s.wdata := rfl
@[simp] theorem respond_reg (v : Wide) (r : Reg) : (s.respond v).reg r = s.reg r := rfl
@[simp] theorem respond_responses (v : Wide) : (s.respond v).host.responses = s.host.responses ++ [⟨.ok, v⟩] := rfl
@[simp] theorem respond_actions (v : Wide) : (s.respond v).host.actions = s.host.actions := rfl
@[simp] theorem respond_txAnswers (v : Wide) : (s.respond v).host.txAnswers = s.host.txAnswers := rfl
@[simp] theorem respond_rxAnswers (v : Wide) : (s.respond v).host.rxAnswers = s.host.rxAnswers := rfl
@[simp] theorem respond_txFrames (v : Wide) : (s.respond v).host.txFrames = s.host.txFrames := rfl
@[simp] theorem respond_sink (v : Wide) : (s.respond v).host.sink = s.host.sink := rfl
@[simp] theorem respond_sinkPos (v : Wide) : (s.respond v).host.sinkPos = s.host.sinkPos := rfl

/-- The written register reads as the written value. -/
@[simp] theorem setReg_reg_self (r : Reg) (v : Wide) : (s.setReg r v).reg r = v := by
  simp [reg, setReg]

/-- Every other register reads as before. -/
theorem setReg_reg_ne (r q : Reg) (v : Wide) (h : q ≠ r) : (s.setReg r v).reg q = s.reg q := by
  have : (r : Nat) ≠ q := fun e => h (Fin.ext e.symm)
  simp [reg, setReg, this]

end Sys2Proof.Machine.State
end

