-- ==== Sys2Proof/Laws/Ops.lean ====
section
/-! SUPPORT. What the shared operations do, said once each: the latch gate, the range check, raising a condition, the
stream operations, handing a frame over, and the step on each kind of host action. -/

namespace Sys2Proof.Machine

open Sys2Proof.Safety

variable (s : State)

/-! ## The latch gate and the range check -/

/-- With the latch clear a command runs (R266, R268). -/
theorem command_live (run : State → State) (h : s.faulted = false) : command s run = .next (run s) := by
  simp [command, h]

/-- With the latch set every command answers FAULTED and changes nothing (R266). -/
theorem command_faulted (run : State → State) (h : s.faulted = true) :
    command s run = .next (answered s .faulted 0) := by
  simp only [command, h, if_true]; rfl

/-- In range, a checked command runs (R268). -/
theorem checked_legal (run : State → State) (h : s.faulted = false) : checked true s run = .next (run s) := by
  rw [checked, command_live s _ h]; rfl

/-- Out of range, it only marks ILL and answers ILLEGAL_OPERAND (R263). -/
theorem checked_illegal (run : State → State) (h : s.faulted = false) :
    checked false s run = .next (answered { s with ill := true } .illegalOperand 0) := by
  rw [checked, command_live s _ h]; rfl

/-! ## Responses and conditions -/

theorem answer_eq_answered (st : Status) (v : Wide) : s.answer st v = answered s st v := rfl

theorem respond_eq_answered (v : Wide) : s.respond v = answered s .ok v := rfl

theorem raise_typeMismatch : raise .typeMismatch s = answered s .typeMismatch 0 := rfl

theorem raise_illegalCommand : raise .illegalCommand s = answered { s with ill := true } .illegalCommand 0 := rfl

theorem raise_illegalOperand : raise .illegalOperand s = answered { s with ill := true } .illegalOperand 0 := rfl

theorem raise_divByZero : raise .divByZero s = answered { s with faulted := true } .divByZero 0 := rfl

theorem raise_faulted : raise .faulted s = answered s .faulted 0 := rfl

theorem raise_noVerdict : raise .noVerdict s = answered s .noVerdict 0 := rfl

/-! ## Streams -/

/-- A writable sink takes the frame (R77, R79). -/
theorem emit_ready (f : Frame) (h : s.host.txReady = true) :
    emit f s = s.setHost (HostSide.accept { s.host with txAnswers := s.host.txAnswers.tail } f) := by
  simp [emit, h]

/-- A sink that is not writable drops it; only the sampled answer is gone (R77, R78). -/
theorem emit_notReady (f : Frame) (h : s.host.txReady = false) :
    emit f s = s.setHost { s.host with txAnswers := s.host.txAnswers.tail } := by
  simp [emit, h]

/-- Everything a frame-writing Builder command does once its frame is built. -/
theorem writeFrame_handsOver (f : Frame) (b : Builder) : HandsOver s (writeFrame f b s) f b := by
  cases h : s.host.txReady with
  | true =>
    have he : writeFrame f b s =
        ((s.setHost (HostSide.accept { s.host with txAnswers := s.host.txAnswers.tail } f)).setB b).respond 1 := by
      rw [writeFrame, emit_ready s f h, emitted, h]; rfl
    have hlen : f.toList.length = 256 := by simp
    refine Or.inl ⟨h, by rw [he]; rfl, fun k => ?_, fun a ha => ?_⟩
    · rw [he]
      have hk : s.host.sinkPos ≤ s.host.sinkPos + k ∧ s.host.sinkPos + k < s.host.sinkPos + f.toList.length := by omega
      simp only [State.respond_sink, State.setB_host, State.setHost_host, HostSide.accept, Memory.read_store, if_pos hk]
      simp [List.getD_eq_getElem?_getD]
    · rw [he]
      have hn : ¬ (s.host.sinkPos ≤ a ∧ a < s.host.sinkPos + f.toList.length) := by omega
      simp only [State.respond_sink, State.setB_host, State.setHost_host, HostSide.accept, Memory.read_store, if_neg hn]
  | false =>
    exact Or.inr ⟨h, by rw [writeFrame, emit_notReady s f h, emitted, h]; rfl⟩

/-- An open guard lets the command run; a closed one answers 0 and nothing else (R202). -/
theorem guarded_open (run : State → State) (h : builderOpen s.b = true) : guarded run s = run s := by
  simp [guarded, h]

theorem guarded_closed (run : State → State) (h : builderOpen s.b = false) : guarded run s = answered s .ok 0 := by
  simp only [guarded, h]; rfl

/-! ## The step on each host action -/

theorem step_idle (h : s.host.actions = []) : step s = .next s := by
  simp [step, h]

theorem step_command (cmd : Word32) (wdata : Wide) (rest : List HostAction)
    (h : s.host.actions = .command cmd wdata :: rest) :
    step s = runWord cmd { s with wdata := wdata, host := { s.host with actions := rest } } := by
  simp [step, h, dropAction, State.setWdata, State.setHost]

theorem step_seek (pos : Nat) (rest : List HostAction) (h : s.host.actions = .seek pos :: rest) :
    step s = .next { s with host := { s.host with actions := rest, sinkPos := pos } } := by
  simp [step, h, dropAction, seekSink, State.setHost]

theorem step_reset (rest : List HostAction) (h : s.host.actions = .reset :: rest) :
    step s = .next { State.reset with wdata := s.wdata, host := { s.host with actions := rest } } := by
  simp [step, h, dropAction, resetUnit, State.setHost]

theorem runWord_decoded (cmd : Word32) (i : Instr) (h : decode cmd = .ok i) : runWord cmd s = exec i s := by
  simp [runWord, h]

theorem runWord_illegal (cmd : Word32) (e : Illegal) (h : decode cmd = .error e) :
    runWord cmd s = command s (raise .illegalCommand) := by
  simp [runWord, h, illegalWord]

end Sys2Proof.Machine
end

