-- ==== Sys2Proof/Laws/Exec.lean ====
section
/-! SUPPORT. What every command has in common, said once: it meets the FAULTED latch first and then runs to completion
(spec/60_exceptions.md R266, R268), and what the operand forms can be. -/

namespace Sys2Proof.Machine

open Sys2Proof.Safety

/-- Every command is some run behind the latch gate, the same run in every state. -/
theorem exec_gated (i : Instr) : ∃ run : State → State, ∀ s, exec i s = command s run := by
  cases i <;> exact ⟨_, fun _ => rfl⟩

/-- A kind number is legal exactly from 1 to 4 (R109, R176). -/
theorem kindOf_isSome (n : Nat) : (kindOf n).isSome = true ↔ 1 ≤ n ∧ n ≤ 4 := by
  unfold kindOf
  split <;> simp_all
  omega

/-- Every field of R177 lies inside the frame and moves at most one bus width. -/
theorem fieldOf_inside (view fld idx : Nat) (fd : Field) (h : fieldOf view fld idx = some fd) :
    fd.off + fd.bytes ≤ 256 ∧ fd.bytes ≤ 16 := by
  unfold fieldOf at h
  split at h <;> simp only [single, chunked, reduceCtorEq, Option.ite_none_right_eq_some, Option.some.injEq] at h <;>
    obtain ⟨_, rfl⟩ := h <;> dsimp only <;> omega

/-- A typed field has its view's kind; the RAW fields have none (R176, R177). -/
theorem fieldOf_view (view fld idx : Nat) (fd : Field) (h : fieldOf view fld idx = some fd) : fd.view = kindOf view := by
  unfold fieldOf at h
  split at h <;> simp only [single, chunked, reduceCtorEq, Option.ite_none_right_eq_some, Option.some.injEq] at h <;>
    obtain ⟨_, rfl⟩ := h <;> rfl

end Sys2Proof.Machine
end

