-- ==== Sys2Proof/Laws/Frames.lean ====
section
/-! SUPPORT. What reading and writing little-endian integers does to a buffer, and every byte of the frames the
sequencer builds, said once each (spec/20_memory.md R63; spec/43_builder.md R206 to R209). -/

namespace Sys2Proof.Machine

/-! ## Little-endian integers -/

/-- A zero buffer reads zero everywhere. -/
@[simp] theorem byteAt_zeroBuffer (n i : Nat) : byteAt (zeroBuffer n) i = 0 := by
  by_cases h : i < n <;> simp [byteAt, zeroBuffer, List.getD_eq_getElem?_getD, h]

/-- The integer of a byte string as the sum of its digits (R63). -/
theorem natOfBytes_eq_sum (bs : List Byte) :
    natOfBytes bs = ∑ k ∈ Finset.range bs.length, (bs.getD k 0).toNat * 256 ^ k := by
  induction bs with
  | nil => rfl
  | cons b bs ih =>
    rw [List.length_cons, Finset.sum_range_succ', natOfBytes, ih, Finset.mul_sum, Nat.add_comm]
    congr 1
    · exact Finset.sum_congr rfl fun k _ => by rw [List.getD_cons_succ, Nat.pow_succ]; ring
    · simp

/-- `MemRead` is the sum of R63, inside the bounds. -/
theorem memRead_eq_sum {m : Nat} (buf : Buffer m) (off n : Nat) (h : off + n ≤ m) :
    memRead buf off n = ∑ k ∈ Finset.range n, (byteAt buf (off + k)).toNat * 256 ^ k := by
  rw [memRead, natOfBytes_eq_sum, readBytes_length buf off n h]
  exact Finset.sum_congr rfl fun k hk => by rw [readBytes_getD buf off n k (Finset.mem_range.mp hk)]

/-- `MemRead` of `n` bytes is below `256^n`. -/
theorem memRead_lt {m : Nat} (buf : Buffer m) (off n : Nat) (h : off + n ≤ m) : memRead buf off n < 256 ^ n := by
  have := natOfBytes_lt (readBytes buf off n)
  rwa [readBytes_length buf off n h] at this

/-- Every byte after `MemWrite` (R63). -/
theorem byteAt_memWrite {m : Nat} (buf : Buffer m) (off n v i : Nat) (hi : i < m) :
    byteAt (memWrite buf off n v) i =
      if off ≤ i ∧ i < off + n then BitVec.ofNat 8 (v / 256 ^ (i - off)) else byteAt buf i := by
  rw [memWrite, byteAt_writeBytes _ _ _ _ hi, bytesOfNat_length]
  split
  · rw [bytesOfNat_getD _ _ _ (by omega)]
  · rfl

/-- Two buffers with the same bytes in a range give the same integer there. -/
theorem memRead_congr {m p : Nat} (a : Buffer m) (b : Buffer p) (off off' n : Nat) (ha : off + n ≤ m)
    (hb : off' + n ≤ p) (h : ∀ k, k < n → byteAt a (off + k) = byteAt b (off' + k)) :
    memRead a off n = memRead b off' n := by
  rw [memRead_eq_sum a off n ha, memRead_eq_sum b off' n hb]
  exact Finset.sum_congr rfl fun k hk => by rw [h k (Finset.mem_range.mp hk)]

/-- A range that holds the digits of a number reads as that number, cut to the range. -/
theorem memRead_of_digits {m : Nat} (buf : Buffer m) (off n v : Nat) (h : off + n ≤ m)
    (hd : ∀ k, k < n → byteAt buf (off + k) = BitVec.ofNat 8 (v / 256 ^ k)) : memRead buf off n = v % 256 ^ n := by
  rw [memRead, ← natOfBytes_bytesOfNat]
  congr 1
  apply List.ext_getElem (by rw [readBytes_length buf off n h, bytesOfNat_length])
  intro k h1 h2
  rw [bytesOfNat_length] at h2
  have e1 := readBytes_getD buf off n k h2
  have e2 := bytesOfNat_getD n v k h2
  rw [List.getD_eq_getElem _ _ h1] at e1
  rw [List.getD_eq_getElem _ _ (by simpa using h2)] at e2
  rw [e1, e2, hd k h2]

/-- Reading what was just written (R63). -/
theorem memRead_memWrite {m : Nat} (buf : Buffer m) (off n v : Nat) (h : off + n ≤ m) :
    memRead (memWrite buf off n v) off n = v % 256 ^ n :=
  memRead_of_digits _ off n v h fun k hk => by
    rw [byteAt_memWrite _ _ _ _ _ (by omega), if_pos (by omega)]
    congr 3
    omega

/-- Reading away from what was written (R63). -/
theorem memRead_memWrite_disjoint {m : Nat} (buf : Buffer m) (off n v off' n' : Nat) (h : off' + n' ≤ m)
    (hd : off' + n' ≤ off ∨ off + n ≤ off') : memRead (memWrite buf off n v) off' n' = memRead buf off' n' :=
  memRead_congr _ _ _ _ _ h h fun k hk => by rw [byteAt_memWrite _ _ _ _ _ (by omega), if_neg (by omega)]

/-! ## Sealing -/

/-- The checksum field of a sealed frame is the CRC of the first 252 bytes (R72, R184). -/
theorem memRead_sealFrame (f : Frame) : memRead (sealFrame f) 252 4 = (computedChecksum f).toNat := by
  rw [sealFrame, cfg_cksumOff, memRead_memWrite _ _ _ _ (by omega)]
  exact Nat.mod_eq_of_lt (computedChecksum f).isLt

/-- A range of bytes determines the byte string read there. -/
theorem readBytes_congr {m p : Nat} (a : Buffer m) (b : Buffer p) (off off' n : Nat) (ha : off + n ≤ m)
    (hb : off' + n ≤ p) (h : ∀ k, k < n → byteAt a (off + k) = byteAt b (off' + k)) :
    readBytes a off n = readBytes b off' n := by
  apply List.ext_getElem (by rw [readBytes_length _ _ _ ha, readBytes_length _ _ _ hb])
  intro k h1 h2
  have hk : k < n := by rwa [readBytes_length _ _ _ ha] at h1
  have e1 := readBytes_getD a off n k hk
  have e2 := readBytes_getD b off' n k hk
  rw [List.getD_eq_getElem _ _ h1] at e1
  rw [List.getD_eq_getElem _ _ h2] at e2
  rw [e1, e2, h k hk]

/-- Sealing does not change what the checksum is computed over (R72). -/
theorem computedChecksum_sealFrame (f : Frame) : computedChecksum (sealFrame f) = computedChecksum f := by
  rw [computedChecksum, computedChecksum, cfg_cksumOff]
  congr 1
  refine readBytes_congr _ _ _ _ _ (by omega) (by omega) fun k hk => ?_
  rw [sealFrame, cfg_cksumOff, byteAt_memWrite _ _ _ _ _ (by omega), if_neg (by omega)]

/-! ## The frames of the Builder, byte by byte below the checksum -/

/-- Every byte of a sealed frame below the checksum field is the byte it had before. -/
theorem byteAt_sealFrame_of_lt {f : Frame} {i : Nat} (h : i < 252) : byteAt (sealFrame f) i = byteAt f i := by
  rw [sealFrame, cfg_cksumOff, byteAt_memWrite _ _ _ _ _ (by omega), if_neg (by omega)]

/-- A Head frame (R206): tag, version, count, label and size; zero elsewhere. -/
theorem byteAt_headFrame (label : Label) (count size : Wide) (i : Nat) (h : i < 252) :
    byteAt (headFrame label count size) i =
      if 64 ≤ i ∧ i < 80 then BitVec.ofNat 8 (size.toNat / 256 ^ (i - 64))
      else if 32 ≤ i ∧ i < 64 then byteAt label (i - 32)
      else if 16 ≤ i ∧ i < 32 then BitVec.ofNat 8 (count.toNat / 256 ^ (i - 16))
      else if 12 ≤ i ∧ i < 16 then BitVec.ofNat 8 (cfg.formatVersion.toNat / 256 ^ (i - 12))
      else if 8 ≤ i ∧ i < 12 then BitVec.ofNat 8 (cfg.tagHead.toNat / 256 ^ (i - 8))
      else 0 := by
  have hl : (readBytes label 0 32).length = 32 := readBytes_length label 0 32 (by omega)
  simp only [headFrame]
  rw [byteAt_sealFrame_of_lt h, byteAt_memWrite _ _ _ _ _ (by omega), byteAt_writeBytes _ _ _ _ (by omega), hl,
    byteAt_memWrite _ _ _ _ _ (by omega), byteAt_memWrite _ _ _ _ _ (by omega), byteAt_memWrite _ _ _ _ _ (by omega),
    byteAt_memWrite _ _ _ _ _ (by omega), blankFrame, byteAt_zeroBuffer]
  by_cases h5 : 32 ≤ i ∧ i < 32 + 32
  · rw [if_pos h5, readBytes_getD _ _ _ _ (by omega), Nat.zero_add]
    simp only [if_neg (show ¬ (64 ≤ i ∧ i < 64 + 16) by omega),
      if_pos (show 32 ≤ i ∧ i < 64 by omega)]
  · simp [h5]

/-- A Data frame (R207): the index's low 64 bits, the tag, the first `size` payload bytes; zero elsewhere. -/
theorem byteAt_dataFrame (index : Wide) (payload : Payload) (size : Nat) (hs : size ≤ 240) (i : Nat) (h : i < 252) :
    byteAt (dataFrame index payload size) i =
      if 12 ≤ i ∧ i < 12 + size then byteAt payload (i - 12)
      else if 8 ≤ i ∧ i < 12 then BitVec.ofNat 8 (cfg.tagData.toNat / 256 ^ (i - 8))
      else if i < 8 then BitVec.ofNat 8 (index.toNat / 256 ^ i)
      else 0 := by
  have hl : (readBytes payload 0 size).length = size := readBytes_length payload 0 size (by omega)
  simp only [dataFrame]
  rw [byteAt_sealFrame_of_lt h, byteAt_writeBytes _ _ _ _ (by omega), hl, byteAt_memWrite _ _ _ _ _ (by omega),
    byteAt_memWrite _ _ _ _ _ (by omega), blankFrame, byteAt_zeroBuffer]
  by_cases h5 : 12 ≤ i ∧ i < 12 + size
  · rw [if_pos h5, if_pos h5, readBytes_getD _ _ _ _ (by omega), Nat.zero_add]
  · simp [h5]

/-- A Continuation frame (R208): the index's low 64 bits, the tag, the whole index, the label; zero elsewhere. -/
theorem byteAt_contFrame (index : Wide) (label : Label) (i : Nat) (h : i < 252) :
    byteAt (contFrame index label) i =
      if 32 ≤ i ∧ i < 64 then byteAt label (i - 32)
      else if 16 ≤ i ∧ i < 32 then BitVec.ofNat 8 (index.toNat / 256 ^ (i - 16))
      else if 8 ≤ i ∧ i < 12 then BitVec.ofNat 8 (cfg.tagCont.toNat / 256 ^ (i - 8))
      else if i < 8 then BitVec.ofNat 8 (index.toNat / 256 ^ i)
      else 0 := by
  have hl : (readBytes label 0 32).length = 32 := readBytes_length label 0 32 (by omega)
  simp only [contFrame]
  rw [byteAt_sealFrame_of_lt h, byteAt_writeBytes _ _ _ _ (by omega), hl, byteAt_memWrite _ _ _ _ _ (by omega),
    byteAt_memWrite _ _ _ _ _ (by omega), byteAt_memWrite _ _ _ _ _ (by omega), blankFrame, byteAt_zeroBuffer]
  by_cases h5 : 32 ≤ i ∧ i < 32 + 32
  · rw [if_pos h5, readBytes_getD _ _ _ _ (by omega), Nat.zero_add, if_pos (show 32 ≤ i ∧ i < 64 by omega)]
  · simp [h5]

/-- A Finish frame (R209): the index's low 64 bits, the tag, the count, the total; zero elsewhere. -/
theorem byteAt_finishFrame (index total : Wide) (i : Nat) (h : i < 252) :
    byteAt (finishFrame index total) i =
      if 64 ≤ i ∧ i < 80 then BitVec.ofNat 8 (total.toNat / 256 ^ (i - 64))
      else if 16 ≤ i ∧ i < 32 then BitVec.ofNat 8 ((index + 1).toNat / 256 ^ (i - 16))
      else if 8 ≤ i ∧ i < 12 then BitVec.ofNat 8 (cfg.tagFinf.toNat / 256 ^ (i - 8))
      else if i < 8 then BitVec.ofNat 8 (index.toNat / 256 ^ i)
      else 0 := by
  simp only [finishFrame]
  rw [byteAt_sealFrame_of_lt h, byteAt_memWrite _ _ _ _ _ (by omega), byteAt_memWrite _ _ _ _ _ (by omega),
    byteAt_memWrite _ _ _ _ _ (by omega), byteAt_memWrite _ _ _ _ _ (by omega), blankFrame, byteAt_zeroBuffer]
  simp

/-- The four frames of the Builder pass the validity check that the reader applies (R185): sealing makes it so. -/
theorem frameValid_sealFrame (f : Frame) : frameValid (sealFrame f) = true := by
  simp [frameValid, computedChecksum_sealFrame, frameChecksum, memRead_sealFrame]

end Sys2Proof.Machine
end

