-- ==== Sys2Proof/Laws/PerInstr.lean ====
section
/-! SUPPORT. Every command's word, as the encoder writes it, has its opcode in bits 31:24 and a 0 in every bit its
format requires to be 0 (spec/30_encoding.md R91, R92): the map has a row for it and the word passes the row's mask.
One lemma per format, then one per command. -/

namespace Sys2Proof

/-! ## The opcode and the mask of each format's word -/

/-- The number of two fields side by side. -/
theorem toNat_fields {m n : Nat} (x : BitVec m) (y : BitVec n) : (x ++ y).toNat = x.toNat * 2 ^ n + y.toNat := by
  rw [BitVec.toNat_append, ← Nat.shiftLeft_add_eq_or_of_lt y.isLt, Nat.shiftLeft_eq]

/-- The opcode of a word is its number's top byte. -/
theorem opOf_eq (c : Word32) : opOf c = c.toNat / 2 ^ 24 % 256 := by
  simp [opOf, BitVec.extractLsb'_toNat, Nat.shiftRight_eq_div_pow]

/-- An AND of fields side by side is the ANDs side by side. -/
theorem and_fields {m n : Nat} (x x' : BitVec m) (y y' : BitVec n) :
    (x ++ y) &&& (x' ++ y') = (x &&& x') ++ (y &&& y') := BitVec.and_append

theorem opOf_wordR3 (op : BitVec 8) (rd ra rb : Reg) : opOf (wordR3 op rd ra rb) = op.toNat := by
  rw [opOf_eq]
  simp only [wordR3, toNat_fields]
  omega

theorem wordR3_mask (op : BitVec 8) (rd ra rb : Reg) : wordR3 op rd ra rb &&& maskOf .r3 = matchOf op.toNat := by
  change ((op ++ regField rd ++ regField ra ++ regField rb ++ 0#12) &&&
    (BitVec.allOnes 8 ++ 0#4 ++ 0#4 ++ 0#4 ++ 0xFFF#12) : BitVec (8 + 4 + 4 + 4 + 12)) = _
  simp only [and_fields, BitVec.and_allOnes, BitVec.and_zero, BitVec.zero_and]
  revert op
  decide +kernel

theorem opOf_wordR2 (op : BitVec 8) (rd ra : Reg) : opOf (wordR2 op rd ra) = op.toNat := by
  rw [opOf_eq]
  simp only [wordR2, toNat_fields]
  omega

theorem wordR2_mask (op : BitVec 8) (rd ra : Reg) : wordR2 op rd ra &&& maskOf .r2 = matchOf op.toNat := by
  change ((op ++ regField rd ++ regField ra ++ 0#16) &&&
    (BitVec.allOnes 8 ++ 0#4 ++ 0#4 ++ 0xFFFF#16) : BitVec (8 + 4 + 4 + 16)) = _
  simp only [and_fields, BitVec.and_allOnes, BitVec.and_zero, BitVec.zero_and]
  revert op
  decide +kernel

theorem opOf_wordRD (op : BitVec 8) (rd : Reg) : opOf (wordRD op rd) = op.toNat := by
  rw [opOf_eq]
  simp only [wordRD, toNat_fields]
  omega

theorem wordRD_mask (op : BitVec 8) (rd : Reg) : wordRD op rd &&& maskOf .rd = matchOf op.toNat := by
  change ((op ++ regField rd ++ 0#20) &&&
    (BitVec.allOnes 8 ++ 0#4 ++ 0xFFFFF#20) : BitVec (8 + 4 + 20)) = _
  simp only [and_fields, BitVec.and_allOnes, BitVec.and_zero, BitVec.zero_and]
  revert op
  decide +kernel

theorem opOf_wordRS (op : BitVec 8) (ra : Reg) : opOf (wordRS op ra) = op.toNat := by
  rw [opOf_eq]
  simp only [wordRS, toNat_fields]
  omega

theorem wordRS_mask (op : BitVec 8) (ra : Reg) : wordRS op ra &&& maskOf .rs = matchOf op.toNat := by
  change ((op ++ 0#4 ++ regField ra ++ 0#16) &&&
    (BitVec.allOnes 8 ++ 0xF#4 ++ 0#4 ++ 0xFFFF#16) : BitVec (8 + 4 + 4 + 16)) = _
  simp only [and_fields, BitVec.and_allOnes, BitVec.and_zero, BitVec.zero_and]
  revert op
  decide +kernel

theorem opOf_wordRC (op : BitVec 8) (ra rb : Reg) : opOf (wordRC op ra rb) = op.toNat := by
  rw [opOf_eq]
  simp only [wordRC, toNat_fields]
  omega

theorem wordRC_mask (op : BitVec 8) (ra rb : Reg) : wordRC op ra rb &&& maskOf .rc = matchOf op.toNat := by
  change ((op ++ 0#4 ++ regField ra ++ regField rb ++ 0#12) &&&
    (BitVec.allOnes 8 ++ 0xF#4 ++ 0#4 ++ 0#4 ++ 0xFFF#12) : BitVec (8 + 4 + 4 + 4 + 12)) = _
  simp only [and_fields, BitVec.and_allOnes, BitVec.and_zero, BitVec.zero_and]
  revert op
  decide +kernel

theorem opOf_wordRI (op : BitVec 8) (rd ra : Reg) (imm16 : Nat) : opOf (wordRI op rd ra imm16) = op.toNat := by
  rw [opOf_eq]
  simp only [wordRI, toNat_fields]
  omega

theorem wordRI_mask (op : BitVec 8) (rd ra : Reg) (imm16 : Nat) : wordRI op rd ra imm16 &&& maskOf .ri = matchOf op.toNat := by
  change ((op ++ regField rd ++ regField ra ++ BitVec.ofNat 16 imm16) &&&
    (BitVec.allOnes 8 ++ 0#4 ++ 0#4 ++ 0#16) : BitVec (8 + 4 + 4 + 16)) = _
  simp only [and_fields, BitVec.and_allOnes, BitVec.and_zero]
  revert op
  decide +kernel

theorem opOf_wordSR (op : BitVec 8) (rd : Reg) (imm16 : Nat) : opOf (wordSR op rd imm16) = op.toNat := by
  rw [opOf_eq]
  simp only [wordSR, toNat_fields]
  omega

theorem wordSR_mask (op : BitVec 8) (rd : Reg) (imm16 : Nat) : wordSR op rd imm16 &&& maskOf .sr = matchOf op.toNat := by
  change ((op ++ regField rd ++ 0#4 ++ BitVec.ofNat 16 imm16) &&&
    (BitVec.allOnes 8 ++ 0#4 ++ 0xF#4 ++ 0#16) : BitVec (8 + 4 + 4 + 16)) = _
  simp only [and_fields, BitVec.and_allOnes, BitVec.and_zero, BitVec.zero_and]
  revert op
  decide +kernel

theorem opOf_wordN (op : BitVec 8) : opOf (wordN op) = op.toNat := by
  rw [opOf_eq]
  simp only [wordN, toNat_fields]
  omega

theorem wordN_mask (op : BitVec 8) : wordN op &&& maskOf .n = matchOf op.toNat := by
  change ((op ++ 0#24) &&&
    (BitVec.allOnes 8 ++ 0xFFFFFF#24) : BitVec (8 + 24)) = _
  simp only [and_fields, BitVec.and_allOnes, BitVec.zero_and]
  revert op
  decide +kernel

theorem opOf_wordI (op : BitVec 8) (imm16 : Nat) : opOf (wordI op imm16) = op.toNat := by
  rw [opOf_eq]
  simp only [wordI, toNat_fields]
  omega

theorem wordI_mask (op : BitVec 8) (imm16 : Nat) : wordI op imm16 &&& maskOf .i = matchOf op.toNat := by
  change ((op ++ 0#8 ++ BitVec.ofNat 16 imm16) &&&
    (BitVec.allOnes 8 ++ 0xFF#8 ++ 0#16) : BitVec (8 + 8 + 16)) = _
  simp only [and_fields, BitVec.and_allOnes, BitVec.and_zero, BitVec.zero_and]
  revert op
  decide +kernel

theorem opOf_wordP (op : BitVec 8) (a8 imm16 : Nat) : opOf (wordP op a8 imm16) = op.toNat := by
  rw [opOf_eq]
  simp only [wordP, toNat_fields]
  omega

theorem wordP_mask (op : BitVec 8) (a8 imm16 : Nat) : wordP op a8 imm16 &&& maskOf .p = matchOf op.toNat := by
  change ((op ++ BitVec.ofNat 8 a8 ++ BitVec.ofNat 16 imm16) &&&
    (BitVec.allOnes 8 ++ 0#8 ++ 0#16) : BitVec (8 + 8 + 16)) = _
  simp only [and_fields, BitVec.and_allOnes, BitVec.and_zero]
  revert op
  decide +kernel

theorem opOf_wordV (op : BitVec 8) (view fld idx : Nat) : opOf (wordV op view fld idx) = op.toNat := by
  rw [opOf_eq]
  simp only [wordV, toNat_fields]
  omega

theorem wordV_mask (op : BitVec 8) (view fld idx : Nat) : wordV op view fld idx &&& maskOf .v = matchOf op.toNat := by
  change ((op ++ 0#4 ++ BitVec.ofNat 4 view ++ BitVec.ofNat 4 fld ++ BitVec.ofNat 12 idx) &&&
    (BitVec.allOnes 8 ++ 0xF#4 ++ 0#4 ++ 0#4 ++ 0#12) : BitVec (8 + 4 + 4 + 4 + 12)) = _
  simp only [and_fields, BitVec.and_allOnes, BitVec.and_zero, BitVec.zero_and]
  revert op
  decide +kernel

end Sys2Proof

namespace Sys2Proof.Laws.EncodingForm

/-- The command's word has a row in the opcode map and passes the mask of the row's format. -/
def Statement (i : Instr) : Prop :=
  ∃ row, opcodeRow (opOf (encode i)) (encode i) = some row ∧
    encode i &&& maskOf row.format = matchOf (opOf (encode i))

/-- A word whose opcode has a row, of a format whose mask the word passes. -/
theorem of_format {i : Instr} {op : BitVec 8} {row : Row} (h1 : opOf (encode i) = op.toNat)
    (h2 : opcodeRow op.toNat (encode i) = some row) (h3 : encode i &&& maskOf row.format = matchOf op.toNat) :
    Statement i := ⟨row, h1 ▸ h2, h1 ▸ h3⟩

theorem wld (rd : Reg) : Statement (.wld rd) :=
  of_format (opOf_wordRD 0x10 _) rfl (wordRD_mask 0x10 _)
theorem wldu (rd : Reg) : Statement (.wldu rd) :=
  of_format (opOf_wordRD 0x11 _) rfl (wordRD_mask 0x11 _)
theorem wrd (ra : Reg) : Statement (.wrd ra) :=
  of_format (opOf_wordRS 0x12 _) rfl (wordRS_mask 0x12 _)
theorem wmov (rd ra : Reg) : Statement (.wmov rd ra) :=
  of_format (opOf_wordR2 0x13 _ _) rfl (wordR2_mask 0x13 _ _)
theorem wcvt8 (ra : Reg) : Statement (.wcvt8 ra) :=
  of_format (opOf_wordRS 0x14 _) rfl (wordRS_mask 0x14 _)
theorem wcvt16 (ra : Reg) : Statement (.wcvt16 ra) :=
  of_format (opOf_wordRS 0x15 _) rfl (wordRS_mask 0x15 _)
theorem wcvt32 (ra : Reg) : Statement (.wcvt32 ra) :=
  of_format (opOf_wordRS 0x16 _) rfl (wordRS_mask 0x16 _)
theorem wcvt64 (ra : Reg) : Statement (.wcvt64 ra) :=
  of_format (opOf_wordRS 0x17 _) rfl (wordRS_mask 0x17 _)
theorem wadd (rd ra rb : Reg) : Statement (.wadd rd ra rb) :=
  of_format (opOf_wordR3 0x18 _ _ _) rfl (wordR3_mask 0x18 _ _ _)
theorem wsub (rd ra rb : Reg) : Statement (.wsub rd ra rb) :=
  of_format (opOf_wordR3 0x19 _ _ _) rfl (wordR3_mask 0x19 _ _ _)
theorem wmul (rd ra rb : Reg) : Statement (.wmul rd ra rb) :=
  of_format (opOf_wordR3 0x1A _ _ _) rfl (wordR3_mask 0x1A _ _ _)
theorem wdiv (rd ra rb : Reg) : Statement (.wdiv rd ra rb) :=
  of_format (opOf_wordR3 0x1B _ _ _) rfl (wordR3_mask 0x1B _ _ _)
theorem wmod (rd ra rb : Reg) : Statement (.wmod rd ra rb) :=
  of_format (opOf_wordR3 0x1C _ _ _) rfl (wordR3_mask 0x1C _ _ _)
theorem winc (rd ra : Reg) : Statement (.winc rd ra) :=
  of_format (opOf_wordR2 0x1D _ _) rfl (wordR2_mask 0x1D _ _)
theorem wdec (rd ra : Reg) : Statement (.wdec rd ra) :=
  of_format (opOf_wordR2 0x1E _ _) rfl (wordR2_mask 0x1E _ _)
theorem wcmp (ra rb : Reg) : Statement (.wcmp ra rb) :=
  of_format (opOf_wordRC 0x1F _ _) rfl (wordRC_mask 0x1F _ _)
theorem wand (rd ra rb : Reg) : Statement (.wand rd ra rb) :=
  of_format (opOf_wordR3 0x20 _ _ _) rfl (wordR3_mask 0x20 _ _ _)
theorem wor (rd ra rb : Reg) : Statement (.wor rd ra rb) :=
  of_format (opOf_wordR3 0x21 _ _ _) rfl (wordR3_mask 0x21 _ _ _)
theorem wxor (rd ra rb : Reg) : Statement (.wxor rd ra rb) :=
  of_format (opOf_wordR3 0x22 _ _ _) rfl (wordR3_mask 0x22 _ _ _)
theorem wnot (rd ra : Reg) : Statement (.wnot rd ra) :=
  of_format (opOf_wordR2 0x23 _ _) rfl (wordR2_mask 0x23 _ _)
theorem wshl (rd ra rb : Reg) : Statement (.wshl rd ra rb) :=
  of_format (opOf_wordR3 0x24 _ _ _) rfl (wordR3_mask 0x24 _ _ _)
theorem wshr (rd ra rb : Reg) : Statement (.wshr rd ra rb) :=
  of_format (opOf_wordR3 0x25 _ _ _) rfl (wordR3_mask 0x25 _ _ _)
theorem wshli (rd ra : Reg) (imm16 : Nat) : Statement (.wshli rd ra imm16) :=
  of_format (opOf_wordRI 0x26 _ _ _) rfl (wordRI_mask 0x26 _ _ _)
theorem wshri (rd ra : Reg) (imm16 : Nat) : Statement (.wshri rd ra imm16) :=
  of_format (opOf_wordRI 0x27 _ _ _) rfl (wordRI_mask 0x27 _ _ _)
theorem crcinit : Statement (.crcinit) :=
  of_format (opOf_wordN 0x30) rfl (wordN_mask 0x30)
theorem crcpb (imm16 : Nat) : Statement (.crcpb imm16) :=
  of_format (opOf_wordI 0x31 _) rfl (wordI_mask 0x31 _)
theorem crcpr (off len : Nat) : Statement (.crcpr off len) :=
  of_format (opOf_wordP 0x32 _ _) rfl (wordP_mask 0x32 _ _)
theorem crcpk : Statement (.crcpk) :=
  of_format (opOf_wordN 0x33) rfl (wordN_mask 0x33)
theorem crcrd : Statement (.crcrd) :=
  of_format (opOf_wordN 0x34) rfl (wordN_mask 0x34)
theorem fnew (kind : Nat) : Statement (.fnew kind) :=
  of_format (opOf_wordI 0x40 _) rfl (wordI_mask 0x40 _)
theorem fchk (kind : Nat) : Statement (.fchk kind) :=
  of_format (opOf_wordI 0x41 _) rfl (wordI_mask 0x41 _)
theorem fget (view fld idx : Nat) : Statement (.fget view fld idx) :=
  of_format (opOf_wordV 0x42 _ _ _) rfl (wordV_mask 0x42 _ _ _)
theorem fset (view fld idx : Nat) : Statement (.fset view fld idx) :=
  of_format (opOf_wordV 0x43 _ _ _) rfl (wordV_mask 0x43 _ _ _)
theorem fval : Statement (.fval) :=
  of_format (opOf_wordN 0x44) rfl (wordN_mask 0x44)
theorem fisv : Statement (.fisv) :=
  of_format (opOf_wordN 0x45) rfl (wordN_mask 0x45)
theorem pbw (idx : Nat) : Statement (.pbw idx) :=
  of_format (opOf_wordI 0x50 _) rfl (wordI_mask 0x50 _)
theorem pbr (idx : Nat) : Statement (.pbr idx) :=
  of_format (opOf_wordI 0x51 _) rfl (wordI_mask 0x51 _)
theorem lblw (half : Nat) : Statement (.lblw half) :=
  of_format (opOf_wordI 0x52 _) rfl (wordI_mask 0x52 _)
theorem lblr (half : Nat) : Statement (.lblr half) :=
  of_format (opOf_wordI 0x53 _) rfl (wordI_mask 0x53 _)
theorem binit : Statement (.binit) :=
  of_format (opOf_wordN 0x60) rfl (wordN_mask 0x60)
theorem bwhead : Statement (.bwhead) :=
  of_format (opOf_wordN 0x61) rfl (wordN_mask 0x61)
theorem bwheadx (ra rb : Reg) : Statement (.bwheadx ra rb) :=
  of_format (opOf_wordRC 0x62 _ _) rfl (wordRC_mask 0x62 _ _)
theorem bwdata (size : Nat) : Statement (.bwdata size) :=
  of_format (opOf_wordI 0x63 _) rfl (wordI_mask 0x63 _)
theorem bwcont : Statement (.bwcont) :=
  of_format (opOf_wordN 0x64) rfl (wordN_mask 0x64)
theorem bwfin : Statement (.bwfin) :=
  of_format (opOf_wordN 0x65) rfl (wordN_mask 0x65)
theorem linit : Statement (.linit) :=
  of_format (opOf_wordN 0x70) rfl (wordN_mask 0x70)
theorem lnext : Statement (.lnext) :=
  of_format (opOf_wordN 0x71) rfl (wordN_mask 0x71)
theorem lgdata (limit : Nat) : Statement (.lgdata limit) :=
  of_format (opOf_wordI 0x72 _) rfl (wordI_mask 0x72 _)
theorem lchk : Statement (.lchk) :=
  of_format (opOf_wordN 0x73) rfl (wordN_mask 0x73)
theorem lgetf : Statement (.lgetf) :=
  of_format (opOf_wordN 0x74) rfl (wordN_mask 0x74)
theorem lglbl : Statement (.lglbl) :=
  of_format (opOf_wordN 0x75) rfl (wordN_mask 0x75)
theorem srd (rd : Reg) (sreg : Nat) : Statement (.srd rd sreg) :=
  of_format (opOf_wordSR 0x80 _ _) rfl (wordSR_mask 0x80 _ _)

end Sys2Proof.Laws.EncodingForm
end

