-- ==== Sys2Proof/Laws/Wide.lean ====
section
/-! SUPPORT. What the wide operations compute, said once each, as bit-vector operations and as numbers
(spec/40_wide_arithmetic.md R128 to R148). -/

namespace Sys2Proof.Machine

theorem wideAdd_eq (a b : Wide) : wideAdd a b = a + b := by
  apply BitVec.eq_of_toNat_eq
  simp [wideAdd]

theorem wideSub_eq (a b : Wide) : wideSub a b = a - b := by
  apply BitVec.eq_of_toNat_eq
  have := b.isLt
  simp [wideSub, BitVec.toNat_sub]
  omega

theorem wideMul_eq (a b : Wide) : wideMul a b = a * b := by
  apply BitVec.eq_of_toNat_eq
  simp [wideMul]

theorem wideInc_eq (a : Wide) : wideInc a = a + 1 := wideAdd_eq a 1

theorem wideDec_eq (a : Wide) : wideDec a = a - 1 := wideSub_eq a 1

/-- The quotient loses nothing: it is at most the dividend (R135). -/
theorem wideDiv_toNat (a b : Wide) : (wideDiv a b).toNat = a.toNat / b.toNat := by
  rw [wideDiv, BitVec.toNat_ofNat]
  exact Nat.mod_eq_of_lt (lt_of_le_of_lt (Nat.div_le_self _ _) a.isLt)

/-- The remainder loses nothing: it is at most the dividend (R136). -/
theorem wideMod_toNat (a b : Wide) : (wideMod a b).toNat = a.toNat % b.toNat := by
  rw [wideMod, BitVec.toNat_ofNat]
  exact Nat.mod_eq_of_lt (lt_of_le_of_lt (Nat.mod_le _ _) a.isLt)

theorem wideShl_eq (a : Wide) (n : Nat) : wideShl a n = a <<< n := by
  unfold wideShl
  split
  · rw [BitVec.shiftLeft_eq_zero (by omega)]; rfl
  · apply BitVec.eq_of_toNat_eq
    simp [Nat.shiftLeft_eq]

theorem wideShr_eq (a : Wide) (n : Nat) : wideShr a n = a >>> n := by
  have h := a.isLt
  apply BitVec.eq_of_toNat_eq
  unfold wideShr
  rw [BitVec.toNat_ushiftRight, Nat.shiftRight_eq_div_pow]
  split
  · rename_i hn
    rw [Nat.div_eq_of_lt (lt_of_lt_of_le h (Nat.pow_le_pow_right (by omega) hn))]
    rfl
  · rw [BitVec.toNat_ofNat]
    exact Nat.mod_eq_of_lt (lt_of_le_of_lt (Nat.div_le_self _ _) h)

theorem lowBits_toNat (n : Nat) (h : n ≤ 128) (a : Wide) : (lowBits n a).toNat = a.toNat % 2 ^ n := by
  rw [lowBits, BitVec.toNat_setWidth, BitVec.toNat_setWidth]
  exact Nat.mod_eq_of_lt (lt_of_lt_of_le (Nat.mod_lt _ (Nat.two_pow_pos n)) (Nat.pow_le_pow_right (by omega) h))

end Sys2Proof.Machine
end

