-- ==== Sys2Proof/Tests/Slice0.lean ====
section
/-! SUPPORT. Small tests, their expected values taken from the spec (the vector named beside each), and one witness for
every statement that has hypotheses.  Nothing here is a statement for the provers. -/

namespace Sys2Proof.Tests

open Sys2Proof.Machine Sys2Proof.Safety Sys2Proof.Statements

set_option maxRecDepth 20000
set_option Elab.async false

/-! ## Well-formedness: an ill-formed term for each check -/

theorem test_wf_refuses_wshli_imm16 : Instr.wellFormed (.wshli 0 0 65536) = false := by decide
theorem test_wf_refuses_wshri_imm16 : Instr.wellFormed (.wshri 0 0 65536) = false := by decide
theorem test_wf_refuses_crcpb_imm16 : Instr.wellFormed (.crcpb 65536) = false := by decide
theorem test_wf_refuses_crcpr_off : Instr.wellFormed (.crcpr 256 0) = false := by decide
theorem test_wf_refuses_crcpr_len : Instr.wellFormed (.crcpr 0 65536) = false := by decide
theorem test_wf_refuses_fnew_kind : Instr.wellFormed (.fnew 65536) = false := by decide
theorem test_wf_refuses_fchk_kind : Instr.wellFormed (.fchk 65536) = false := by decide
theorem test_wf_refuses_fget_view : Instr.wellFormed (.fget 16 0 0) = false := by decide
theorem test_wf_refuses_fget_fld : Instr.wellFormed (.fget 0 16 0) = false := by decide
theorem test_wf_refuses_fget_idx : Instr.wellFormed (.fget 0 0 4096) = false := by decide
theorem test_wf_refuses_fset_view : Instr.wellFormed (.fset 16 0 0) = false := by decide
theorem test_wf_refuses_fset_fld : Instr.wellFormed (.fset 0 16 0) = false := by decide
theorem test_wf_refuses_fset_idx : Instr.wellFormed (.fset 0 0 4096) = false := by decide
theorem test_wf_refuses_pbw_idx : Instr.wellFormed (.pbw 65536) = false := by decide
theorem test_wf_refuses_pbr_idx : Instr.wellFormed (.pbr 65536) = false := by decide
theorem test_wf_refuses_lblw_half : Instr.wellFormed (.lblw 65536) = false := by decide
theorem test_wf_refuses_lblr_half : Instr.wellFormed (.lblr 65536) = false := by decide
theorem test_wf_refuses_bwdata_size : Instr.wellFormed (.bwdata 65536) = false := by decide
theorem test_wf_refuses_lgdata_max : Instr.wellFormed (.lgdata 65536) = false := by decide
theorem test_wf_refuses_srd_sreg : Instr.wellFormed (.srd 0 65536) = false := by decide
theorem test_wf_accepts_the_largest_fields :
    Instr.wellFormed (.crcpr 255 65535) = true ∧ Instr.wellFormed (.fget 15 15 4095) = true := by decide

/-! ## Decoding: one word per row, its bits written out from the row's encoding in spec/opcode_table.json -/

theorem test_decode_wld : decode 0b00010000101100000000000000000000 = .ok (.wld 11) := by decide
theorem test_decode_wldu : decode 0b00010001101100000000000000000000 = .ok (.wldu 11) := by decide
theorem test_decode_wrd : decode 0b00010010000001100000000000000000 = .ok (.wrd 6) := by decide
theorem test_decode_wmov : decode 0b00010011101101100000000000000000 = .ok (.wmov 11 6) := by decide
theorem test_decode_wcvt8 : decode 0b00010100000001100000000000000000 = .ok (.wcvt8 6) := by decide
theorem test_decode_wcvt16 : decode 0b00010101000001100000000000000000 = .ok (.wcvt16 6) := by decide
theorem test_decode_wcvt32 : decode 0b00010110000001100000000000000000 = .ok (.wcvt32 6) := by decide
theorem test_decode_wcvt64 : decode 0b00010111000001100000000000000000 = .ok (.wcvt64 6) := by decide
theorem test_decode_wadd : decode 0b00011000101101101101000000000000 = .ok (.wadd 11 6 13) := by decide
theorem test_decode_wsub : decode 0b00011001101101101101000000000000 = .ok (.wsub 11 6 13) := by decide
theorem test_decode_wmul : decode 0b00011010101101101101000000000000 = .ok (.wmul 11 6 13) := by decide
theorem test_decode_wdiv : decode 0b00011011101101101101000000000000 = .ok (.wdiv 11 6 13) := by decide
theorem test_decode_wmod : decode 0b00011100101101101101000000000000 = .ok (.wmod 11 6 13) := by decide
theorem test_decode_winc : decode 0b00011101101101100000000000000000 = .ok (.winc 11 6) := by decide
theorem test_decode_wdec : decode 0b00011110101101100000000000000000 = .ok (.wdec 11 6) := by decide
theorem test_decode_wcmp : decode 0b00011111000001101101000000000000 = .ok (.wcmp 6 13) := by decide
theorem test_decode_wand : decode 0b00100000101101101101000000000000 = .ok (.wand 11 6 13) := by decide
theorem test_decode_wor : decode 0b00100001101101101101000000000000 = .ok (.wor 11 6 13) := by decide
theorem test_decode_wxor : decode 0b00100010101101101101000000000000 = .ok (.wxor 11 6 13) := by decide
theorem test_decode_wnot : decode 0b00100011101101100000000000000000 = .ok (.wnot 11 6) := by decide
theorem test_decode_wshl : decode 0b00100100101101101101000000000000 = .ok (.wshl 11 6 13) := by decide
theorem test_decode_wshr : decode 0b00100101101101101101000000000000 = .ok (.wshr 11 6 13) := by decide
theorem test_decode_wshli : decode 0b00100110101101101000010000100001 = .ok (.wshli 11 6 33825) := by decide
theorem test_decode_wshri : decode 0b00100111101101101000010000100001 = .ok (.wshri 11 6 33825) := by decide
theorem test_decode_crcinit : decode 0b00110000000000000000000000000000 = .ok (.crcinit) := by decide
theorem test_decode_crcpb : decode 0b00110001000000001000010000100001 = .ok (.crcpb 33825) := by decide
theorem test_decode_crcpr : decode 0b00110010101001011000010000100001 = .ok (.crcpr 165 33825) := by decide
theorem test_decode_crcpk : decode 0b00110011000000000000000000000000 = .ok (.crcpk) := by decide
theorem test_decode_crcrd : decode 0b00110100000000000000000000000000 = .ok (.crcrd) := by decide
theorem test_decode_fnew : decode 0b01000000000000001000010000100001 = .ok (.fnew 33825) := by decide
theorem test_decode_fchk : decode 0b01000001000000001000010000100001 = .ok (.fchk 33825) := by decide
theorem test_decode_fget : decode 0b01000010000010010101110000000011 = .ok (.fget 9 5 3075) := by decide
theorem test_decode_fset : decode 0b01000011000010010101110000000011 = .ok (.fset 9 5 3075) := by decide
theorem test_decode_fval : decode 0b01000100000000000000000000000000 = .ok (.fval) := by decide
theorem test_decode_fisv : decode 0b01000101000000000000000000000000 = .ok (.fisv) := by decide
theorem test_decode_pbw : decode 0b01010000000000001000010000100001 = .ok (.pbw 33825) := by decide
theorem test_decode_pbr : decode 0b01010001000000001000010000100001 = .ok (.pbr 33825) := by decide
theorem test_decode_lblw : decode 0b01010010000000001000010000100001 = .ok (.lblw 33825) := by decide
theorem test_decode_lblr : decode 0b01010011000000001000010000100001 = .ok (.lblr 33825) := by decide
theorem test_decode_binit : decode 0b01100000000000000000000000000000 = .ok (.binit) := by decide
theorem test_decode_bwhead : decode 0b01100001000000000000000000000000 = .ok (.bwhead) := by decide
theorem test_decode_bwheadx : decode 0b01100010000001101101000000000000 = .ok (.bwheadx 6 13) := by decide
theorem test_decode_bwdata : decode 0b01100011000000001000010000100001 = .ok (.bwdata 33825) := by decide
theorem test_decode_bwcont : decode 0b01100100000000000000000000000000 = .ok (.bwcont) := by decide
theorem test_decode_bwfin : decode 0b01100101000000000000000000000000 = .ok (.bwfin) := by decide
theorem test_decode_linit : decode 0b01110000000000000000000000000000 = .ok (.linit) := by decide
theorem test_decode_lnext : decode 0b01110001000000000000000000000000 = .ok (.lnext) := by decide
theorem test_decode_lgdata : decode 0b01110010000000001000010000100001 = .ok (.lgdata 33825) := by decide
theorem test_decode_lchk : decode 0b01110011000000000000000000000000 = .ok (.lchk) := by decide
theorem test_decode_lgetf : decode 0b01110100000000000000000000000000 = .ok (.lgetf) := by decide
theorem test_decode_lglbl : decode 0b01110101000000000000000000000000 = .ok (.lglbl) := by decide
theorem test_decode_srd : decode 0b10000000101100001000010000100001 = .ok (.srd 11 33825) := by decide

/-! ## Illegal words (V-ENC-2 to V-ENC-7, V-ENC-15, V-ENC-17) -/

theorem test_illegal_r3_low_bit : decode 0x18312001 = .error .mustBeZeroBit := by decide
theorem test_illegal_zero_word : decode 0x00000000 = .error .unassignedOpcode := by decide
theorem test_illegal_ones_word : decode 0xFFFFFFFF = .error .unassignedOpcode := by decide
theorem test_illegal_opcode_28 : decode 0x28000000 = .error .unassignedOpcode := by decide
theorem test_illegal_bwfin_bit0 : decode 0x65000001 = .error .mustBeZeroBit := by decide
theorem test_illegal_wrd_rd_field : decode 0x12130000 = .error .mustBeZeroBit := by decide
theorem test_illegal_fget_bits_23_20 : decode 0x42112001 = .error .mustBeZeroBit := by decide
theorem test_illegal_srd_bits_19_16 : decode 0x80810006 = .error .mustBeZeroBit := by decide

/-! ## Helpers -/

/-- The state after one command. -/
def after (i : Instr) (s : State) : State :=
  match exec i s with
  | .next t => t
  | .fault _ => s
  | .refused _ => s

/-- The state after one step. -/
def stepped (s : State) : State :=
  match step s with
  | .next t => t
  | .fault _ => s
  | .refused _ => s

/-- The last response. -/
def lastResponse (s : State) : Option (Status × Wide) := s.host.responses.getLast?.map fun r => (r.status, r.rdata)

/-- Reset with `w1` and `w2` set. -/
def regs (a b : Wide) : State := (State.reset.setReg 1 a).setReg 2 b

/-- The operand `A` of spec/95_test_vectors.md. -/
def opA : Wide := 0x0123456789ABCDEFFEDCBA9876543210

/-- The operand `B` of spec/95_test_vectors.md. -/
def opB : Wide := 0x0FEDCBA9876543210123456789ABCDEF

/-- `2^128 - 1`. -/
def maxWide : Wide := 0xFFFFFFFFFFFFFFFFFFFFFFFFFFFFFFFF

/-- The label `demo` with zeros after it. -/
def demoLabel : Label := bufferOf 32 [0x64, 0x65, 0x6D, 0x6F]

/-- The payload whose byte `i` is `i` (program P2). -/
def countingPayload : Payload := bufferOf 240 ((List.range 240).map (BitVec.ofNat 8))

/-- Reset with the Builder in mid-container at an index and a total, label `demo`, payload counting. -/
def building (index total : Wide) : State :=
  (State.reset.setB { label := demoLabel, index := index, total := total, wroteHead := true, wroteFinish := false }).setPb
    countingPayload

/-- Reset with a Loader record and one frame coming from the source. -/
def loading (l : Loader) (f : Frame) : State :=
  (State.reset.setL l).setHost { HostSide.initial with rxAnswers := [some f] }

/-- The Loader in mid-container: a Head recorded, no Finish. -/
def midLoader (count index size dindex : Wide) : Loader :=
  { Loader.reset with count := count, index := index, size := size, dindex := dindex, readhead := true, started := true }

/-! ## Wide arithmetic (spec/95_test_vectors.md 2.2) -/

theorem test_wld : (after (.wld 1) (State.reset.setWdata opA)).reg 1 = opA := by decide +kernel
theorem test_wldu_ignores_high_half :
    (after (.wldu 1) (State.reset.setWdata opA)).reg 1 = 0x0000000000000000FEDCBA9876543210 := by decide +kernel
theorem test_wrd : lastResponse (after (.wrd 1) (regs opA 0)) = some (.ok, opA) := by decide +kernel
theorem test_wmov : (after (.wmov 7 1) (regs opA 0)).reg 7 = opA := by decide +kernel
theorem test_wcvt8 : lastResponse (after (.wcvt8 1) (regs opA 0)) = some (.ok, 0x10) := by decide +kernel
theorem test_wcvt16 : lastResponse (after (.wcvt16 1) (regs opA 0)) = some (.ok, 0x3210) := by decide +kernel
theorem test_wcvt32 : lastResponse (after (.wcvt32 1) (regs opA 0)) = some (.ok, 0x76543210) := by decide +kernel
theorem test_wcvt64 : lastResponse (after (.wcvt64 1) (regs opA 0)) = some (.ok, 0xFEDCBA9876543210) := by decide +kernel
theorem test_wadd_carry_between_limbs :
    (after (.wadd 3 1 2) (regs 0x0000000000000000FFFFFFFFFFFFFFFF 1)).reg 3 = 0x00000000000000010000000000000000 := by
  decide +kernel
theorem test_wadd_destination_is_source :
    (after (.wadd 1 1 1) (regs maxWide 0)).reg 1 = 0xFFFFFFFFFFFFFFFFFFFFFFFFFFFFFFFE := by decide +kernel
theorem test_wsub_wraps : (after (.wsub 3 1 2) (regs opA opB)).reg 3 = 0xF13579BE02468ACEFDB97530ECA86421 := by
  decide +kernel
theorem test_wsub_borrow : (after (.wsub 3 1 2) (regs 0x10000000000000000 1)).reg 3 = 0xFFFFFFFFFFFFFFFF := by
  decide +kernel
theorem test_wmul_low_half : (after (.wmul 3 1 2) (regs opA opB)).reg 3 = 0xABB6A2D6B8AF20732236D88FE5618CF0 := by
  decide +kernel
theorem test_wmul_max : (after (.wmul 3 1 1) (regs maxWide 0)).reg 3 = 1 := by decide +kernel
theorem test_wdiv_known_value :
    (after (.wdiv 3 1 2) (regs 0x10000000000000000 3)).reg 3 = 6148914691236517205 := by decide +kernel
theorem test_wdiv_top_bit :
    (after (.wdiv 3 1 2) (regs maxWide 0x80000000000000000000000000000000)).reg 3 = 1 := by decide +kernel
theorem test_wmod_known_value : (after (.wmod 4 1 2) (regs 0x10000000000000000 3)).reg 4 = 1 := by decide +kernel
theorem test_wmod_b_a : (after (.wmod 4 2 1) (regs opA opB)).reg 4 = 0x1111111111111110F := by decide +kernel
theorem test_wdiv_zero_divisor :
    let t := after (.wdiv 3 1 0) ((regs 5 0).setReg 3 77)
    t.reg 3 = 77 ∧ t.faulted = true ∧ lastResponse t = some (.divByZero, 0) := by decide +kernel
theorem test_winc_wraps : (after (.winc 1 1) (regs maxWide 0)).reg 1 = 0 := by decide +kernel
theorem test_wdec_wraps : (after (.wdec 1 1) (regs 0 0)).reg 1 = maxWide := by decide +kernel
theorem test_wcmp_limb0_decides :
    lastResponse (after (.wcmp 1 2) (regs 0x10000000000000000 0x10000000000000001)) = some (.ok, 1) := by decide +kernel
theorem test_wcmp_limb1_decides :
    lastResponse (after (.wcmp 1 2) (regs 0x10000000000000000 0xFFFFFFFFFFFFFFFF)) = some (.ok, 2) := by decide +kernel
theorem test_wand : (after (.wand 3 1 2) (regs opA opB)).reg 3 = 0x01214121812141210000000000000000 := by decide +kernel
theorem test_wor : (after (.wor 3 1 2) (regs opA opB)).reg 3 = 0x0FEFCFEF8FEFCFEFFFFFFFFFFFFFFFFF := by decide +kernel
theorem test_wxor : (after (.wxor 3 1 2) (regs opA opB)).reg 3 = 0x0ECE8ECE0ECE8ECEFFFFFFFFFFFFFFFF := by decide +kernel
theorem test_wnot : (after (.wnot 3 1) (regs opA 0)).reg 3 = 0xFEDCBA98765432100123456789ABCDEF := by decide +kernel
theorem test_wshl_huge_count : (after (.wshl 3 1 2) (regs maxWide 0x10000000000000000)).reg 3 = 0 := by decide +kernel
theorem test_wshl_127 : (after (.wshl 3 1 2) (regs 1 127)).reg 3 = 0x80000000000000000000000000000000 := by decide +kernel
theorem test_wshr_127 : (after (.wshr 3 1 2) (regs 0x80000000000000000000000000000000 127)).reg 3 = 1 := by
  decide +kernel
theorem test_wshr_huge_count : (after (.wshr 3 1 2) (regs maxWide 0x10000000000000000)).reg 3 = 0 := by decide +kernel
theorem test_wshli_63 : (after (.wshli 3 1 63) (regs opA 0)).reg 3 = 0xFF6E5D4C3B2A19080000000000000000 := by
  decide +kernel
theorem test_wshli_65535 : (after (.wshli 3 1 65535) (regs maxWide 0)).reg 3 = 0 := by decide +kernel
theorem test_wshri_63 : (after (.wshri 3 1 63) (regs opA 0)).reg 3 = 0x000000000000000002468ACF13579BDF := by
  decide +kernel
theorem test_wshri_200 : (after (.wshri 3 1 200) (regs maxWide 0)).reg 3 = 0 := by decide +kernel

/-! ## CRC (2.3) -/

theorem test_crc_check_value : crc32 [0x31, 0x32, 0x33, 0x34, 0x35, 0x36, 0x37, 0x38, 0x39] = 0xCBF43926 := by
  decide +kernel
theorem test_crc_source_input : crc32 [0x00, 0x18, 0x24, 0x3F, 0xFF, 0xC3, 0x21, 0xFF] = 0x622EB131 := by
  decide +kernel
theorem test_crcinit : (after .crcinit (State.reset.setCrc 0)).crcAcc = 0xFFFFFFFF := by decide +kernel
theorem test_crcpb : (after (.crcpb 0x31) State.reset).crcAcc = 0x7C231048 := by decide +kernel
theorem test_crcpb_256 : lastResponse (after (.crcpb 256) State.reset) = some (.illegalOperand, 0) := by decide +kernel
theorem test_crcpr_252_zero_bytes : (after (.crcpr 0 252) State.reset).crcAcc = 0x599CA60E := by decide +kernel
theorem test_crcpr_past_the_end : lastResponse (after (.crcpr 255 2) State.reset) = some (.illegalOperand, 0) := by
  decide +kernel
theorem test_crcpk_lane_order :
    lastResponse (after .crcrd (after .crcpk (State.reset.setWdata 0x0F0E0D0C0B0A09080706050403020100))) =
      some (.ok, 0xCECEE288) := by decide +kernel
theorem test_crcrd_after_reset : lastResponse (after .crcrd State.reset) = some (.ok, 0) := by decide +kernel

/-! ## Frame buffer (2.4) -/

theorem test_fnew_data_tag :
    readBytes (after (.fnew 3) State.reset).fb 8 4 = [0x44, 0x41, 0x54, 0x41] := by decide +kernel
theorem test_fnew_5 : lastResponse (after (.fnew 5) State.reset) = some (.illegalOperand, 0) := by decide +kernel
theorem test_fchk_mismatch :
    lastResponse (after (.fchk 1) (after (.fnew 3) State.reset)) = some (.typeMismatch, 0) := by decide +kernel
theorem test_fchk_match : lastResponse (after (.fchk 3) (after (.fnew 3) State.reset)) = some (.ok, 0) := by
  decide +kernel
theorem test_fget_unlisted_before_tag :
    lastResponse (after (.fget 2 0 0) (after (.fnew 3) State.reset)) = some (.illegalOperand, 0) := by decide +kernel
theorem test_fset_version_does_not_spill :
    readBytes (after (.fset 1 0 0) ((after (.fnew 1) State.reset).setWdata 0xAABBCCDD11223344)).fb 12 5 =
      [0x44, 0x33, 0x22, 0x11, 0x00] := by decide +kernel
theorem test_fset_last_payload_chunk :
    readBytes (after (.fset 3 2 14) ((after (.fnew 3) State.reset).setWdata maxWide)).fb 235 18 =
      [0, 255, 255, 255, 255, 255, 255, 255, 255, 255, 255, 255, 255, 255, 255, 255, 255, 0] := by decide +kernel
theorem test_fget_raw_chunk_aliases_index :
    lastResponse (after (.fget 0 2 0) (after (.fset 4 1 0) ((after (.fnew 4) State.reset).setWdata opA))) =
      some (.ok, 0x89ABCDEFFEDCBA987654321000000000) := by decide +kernel
theorem test_fval_data : frameChecksum (after .fval (after (.fnew 3) State.reset)).fb = 0x86B0DC30 := by decide +kernel
theorem test_fisv_after_reset : lastResponse (after .fisv State.reset) = some (.ok, 0) := by decide +kernel
theorem test_fisv_after_fval : lastResponse (after .fisv (after .fval State.reset)) = some (.ok, 1) := by
  decide +kernel

/-! ## Staging and special registers (2.7) -/

theorem test_pbw_lanes :
    readBytes (after (.pbw 1) (State.reset.setWdata 0x0F0E0D0C0B0A09080706050403020100)).pb 16 3 = [0, 1, 2] := by
  decide +kernel
theorem test_pbw_15 : lastResponse (after (.pbw 15) State.reset) = some (.illegalOperand, 0) := by decide +kernel
theorem test_pbr_14 : lastResponse (after (.pbr 14) (after (.pbw 14) (State.reset.setWdata maxWide))) =
    some (.ok, maxWide) := by decide +kernel
theorem test_pbr_15 : lastResponse (after (.pbr 15) State.reset) = some (.illegalOperand, 0) := by decide +kernel
theorem test_lblw_demo : (after (.lblw 0) (State.reset.setWdata 0x6F6D6564)).lbl = demoLabel := by decide +kernel
theorem test_lblw_2 : lastResponse (after (.lblw 2) State.reset) = some (.illegalOperand, 0) := by decide +kernel
theorem test_lblr_demo : lastResponse (after (.lblr 0) (State.reset.setLbl demoLabel)) = some (.ok, 0x6F6D6564) := by
  decide +kernel
theorem test_srd_status :
    (after (.srd 0 0) (State.reset.setL { Loader.reset with readhead := true, readfinf := true, fault := true
                                                            started := true })).reg 0 = 0x3C := by decide +kernel
theorem test_srd_8 : lastResponse (after (.srd 0 8) State.reset) = some (.illegalOperand, 0) := by decide +kernel

/-! ## Builder (2.5 and program P2) -/

theorem test_binit_label : (after .binit (State.reset.setLbl demoLabel)).b.label = demoLabel := by decide +kernel
theorem test_bwhead_provisional_checksum :
    (after .bwhead (State.reset.setB { Builder.reset with label := demoLabel })).host.txFrames.map frameChecksum =
      [0x2324BF35] := by decide +kernel
theorem test_bwheadx_final_checksum :
    (after (.bwheadx 1 2) ((regs 4 250).setB { label := demoLabel, index := 3, total := 250, wroteHead := true
                                               wroteFinish := true })).host.txFrames.map frameChecksum =
      [0xEEEC9D05] := by decide +kernel
theorem test_bwheadx_keeps_the_index_after_finish :
    (after (.bwheadx 1 2) ((regs 4 250).setB { label := demoLabel, index := 3, total := 250, wroteHead := true
                                               wroteFinish := true })).b.index = 3 := by decide +kernel
theorem test_bwdata_checksum :
    (after (.bwdata 240) (building 1 0)).host.txFrames.map frameChecksum = [0x9F230B26] := by decide +kernel
theorem test_bwdata_without_head :
    lastResponse (after (.bwdata 5) State.reset) = some (.ok, 0) ∧ (after (.bwdata 5) State.reset).b.index = 0 := by
  decide +kernel
theorem test_bwcont_checksum : (after .bwcont (building 1 0)).host.txFrames.map frameChecksum = [0xB9ABD3F2] := by
  decide +kernel
theorem test_bwfin_checksum : (after .bwfin (building 3 250)).host.txFrames.map frameChecksum = [0x55AE5FAE] := by
  decide +kernel
theorem test_bwdata_skipped_write :
    let t := after (.bwdata 240) ((building 1 0).setHost { HostSide.initial with txAnswers := [false] })
    t.host.txFrames = [] ∧ t.b.index = 2 ∧ t.b.total = 240 ∧ lastResponse t = some (.ok, 0) := by decide +kernel
theorem test_seek_then_overwrite :
    let t := after .bwhead (seekSink 256 State.reset)
    t.host.sink.read 264 = some 0x48 ∧ t.host.sink.read 0 = none ∧ t.host.sinkPos = 512 := by decide +kernel

/-! ## Loader (2.6) -/

theorem test_linit : (after .linit (State.reset.setL (midLoader 4 2 250 480))).l = Loader.reset := by decide +kernel
theorem test_lnext_head :
    let l := (after .lnext (loading Loader.reset (headFrame demoLabel 4 250))).l
    l.count = 4 ∧ l.index = 0 ∧ l.size = 250 ∧ l.readhead = true ∧ l.fault = false ∧ l.label = demoLabel := by
  decide +kernel
theorem test_lnext_finish_adopts_and_flags :
    let l := (after .lnext (loading (midLoader 0 0 0 0) (finishFrame 2 240))).l
    l.count = 3 ∧ l.index = 1 ∧ l.size = 240 ∧ l.readfinf = true ∧ l.fault = true := by decide +kernel
theorem test_lnext_dry_source_twice :
    (after .lnext (after .lnext State.reset)).l.index = 1 ∧
      lastResponse (after .lnext (after .lnext State.reset)) = some (.ok, 0) := by decide +kernel
theorem test_lgdata_10 :
    let t := after (.lgdata 10) (State.reset.setLf (dataFrame 2 countingPayload 240))
    lastResponse t = some (.ok, 10) ∧ readBytes t.pb 8 4 = [8, 9, 0, 0] := by decide +kernel
theorem test_lgdata_not_data :
    lastResponse (after (.lgdata 240) State.reset) = some (.ok, 0) := by decide +kernel
theorem test_lchk_true :
    lastResponse (after .lchk (State.reset.setL { midLoader 4 3 250 480 with readfinf := true })) = some (.ok, 1) := by
  decide +kernel
theorem test_lchk_no_verdict : lastResponse (after .lchk State.reset) = some (.noVerdict, 0) := by decide +kernel
theorem test_lgetf : (after .lgetf (State.reset.setLf (bufferOf 256 [1, 2, 3]))).fb = bufferOf 256 [1, 2, 3] := rfl
theorem test_lglbl : (after .lglbl (State.reset.setL { Loader.reset with label := demoLabel })).lbl = demoLabel := by
  decide +kernel

/-! ## Steps: the latch, illegal words, reset (2.8, 2.9) -/

/-- Reset with host actions placed. -/
def withActions (acts : List HostAction) (s : State) : State := s.setHost { s.host with actions := acts }

theorem test_illegal_word_marks_ill :
    let t := stepped (withActions [.command 0 0] State.reset)
    t.ill = true ∧ lastResponse t = some (.illegalCommand, 0) ∧ t.host.actions = [] := by decide +kernel
theorem test_faulted_word_does_not_mark_ill :
    let t := stepped (withActions [.command 0 0] State.reset.latchFault)
    t.ill = false ∧ lastResponse t = some (.faulted, 0) := by decide +kernel
theorem test_reset_clears_the_latch :
    (stepped (withActions [.reset] (State.reset.latchFault.setReg 3 77))).faulted = false ∧
      (stepped (withActions [.reset] (State.reset.latchFault.setReg 3 77))).reg 3 = 0 := by decide +kernel
theorem test_step_reads_the_operand_bus :
    (stepped (withActions [.command 0x11200000 3] State.reset)).reg 2 = 3 := by decide +kernel
theorem test_fetch_word_runs : (stepped (State.reset.withFetchWord 32 0x23F00000)).reg 15 = maxWide := by decide +kernel
theorem test_reset_wf : State.reset.host.sink.wf := by decide
theorem test_config_widths :
    cfg.wideBits = 128 ∧ cfg.limbs * cfg.limbBits = cfg.wideBits ∧ cfg.nreg = 16 ∧ cfg.frameBytes = 256 ∧
      cfg.payloadBytes = 240 ∧ cfg.payloadOff + cfg.payloadBytes = cfg.cksumOff ∧ cfg.labelBytes = 32 := by decide
/-! ## Witnesses: concrete data that meet every hypothesis of each statement, one theorem per statement; where a
statement has clauses over a range, one conjunct per clause at the range's boundary -/

/-- The frame of the all-zero buffer but for one byte. -/
def withByte (f : Frame) (a : Nat) (v : Byte) : Frame := writeBytes f a [v]

/-- FB at a given content. -/
def withFb (f : Frame) : State := State.reset.setFb f

/-- The frame a step hands over last. -/
def lastFrame (s : State) : Frame := s.host.txFrames.getLast?.getD blankFrame

theorem witness_DecodeOfEncode :
    Instr.wellFormed (.wadd 15 0 7) = true ∧ Instr.wellFormed (.crcpr 255 65535) = true ∧
      Instr.wellFormed (.fset 15 15 4095) = true := by decide
theorem witness_EncodeOfDecode : decode 0x320000FC = .ok (.crcpr 0 252) := by decide
theorem witness_WorkedEncodingsDecode : State.reset.faulted = false := rfl
theorem witness_IllegalWordsOnlyMarkIll :
    State.reset.faulted = false ∧
      (withActions [.command 0xFFFFFFFF 7, .reset] State.reset).host.actions = .command 0xFFFFFFFF 7 :: [.reset] ∧
      decode 0xFFFFFFFF = .error .unassignedOpcode ∧ decode 0x18312001 = .error .mustBeZeroBit := by decide +kernel
theorem witness_StepRunsDecodedCommand :
    (withActions [.command 0x18312000 5] State.reset).host.actions = .command 0x18312000 5 :: [] ∧
      decode 0x18312000 = .ok (.wadd 3 1 2) := by decide +kernel
theorem witness_FaultedLatch_set :
    exec (.wdiv 3 1 2) State.reset = .next (after (.wdiv 3 1 2) State.reset) ∧ State.reset.faulted = false ∧
      (after (.wdiv 3 1 2) State.reset).faulted = true := ⟨rfl, rfl, by decide +kernel⟩
theorem witness_FaultedLatchAnswersEveryCommand :
    (withActions [.command 0 3] State.reset.latchFault).faulted = true ∧
      (withActions [.command 0 3] State.reset.latchFault).host.actions = .command 0 3 :: [] := by decide +kernel
theorem witness_FaultedLatch_cleared :
    step (withActions [.reset] State.reset.latchFault) =
        .next (stepped (withActions [.reset] State.reset.latchFault)) ∧
      (withActions [.reset] State.reset.latchFault).faulted = true ∧
      (stepped (withActions [.reset] State.reset.latchFault)).faulted = false := ⟨rfl, rfl, rfl⟩
theorem witness_OneResponsePerCommand : exec .crcrd State.reset = .next (after .crcrd State.reset) := rfl
theorem witness_OnlyListedCommandsWrite :
    exec (.wnot 3 1) State.reset = .next (after (.wnot 3 1) State.reset) ∧
      (after (.wnot 3 1) State.reset).reg 3 ≠ State.reset.reg 3 ∧
      (withActions [.command 0 7] State.reset).host.actions = .command 0 7 :: [] ∧
      decode 0 = .error .unassignedOpcode ∧
      step (withActions [.command 0 7] State.reset) = .next (stepped (withActions [.command 0 7] State.reset)) :=
  ⟨rfl, by decide +kernel, rfl, rfl, rfl⟩
theorem witness_AtMostOneStreamOperation :
    exec .bwhead State.reset = .next (after .bwhead State.reset) ∧
      exec .lnext State.reset = .next (after .lnext State.reset) := ⟨rfl, rfl⟩
theorem witness_StatusTable :
    exec .lchk State.reset = .next (after .lchk State.reset) ∧
      (after .lchk State.reset).host.responses = State.reset.host.responses ++ [⟨.noVerdict, 0⟩] := ⟨rfl, rfl⟩
theorem witness_ResetStateValues :
    State.reset.faulted = false ∧ (∀ a, a < 32 → byteAt State.reset.lbl a = 0) ∧
      exec .binit State.reset = .next (after .binit State.reset) ∧
      exec .linit State.reset = .next (after .linit State.reset) := ⟨rfl, by decide +kernel, rfl, rfl⟩
theorem witness_HostActionsBetweenCommands :
    State.reset.host.actions = [] ∧ (withActions [.seek 256] State.reset).host.actions = .seek 256 :: [] ∧
      (withActions [.reset, .seek 0] State.reset).host.actions = .reset :: [.seek 0] := ⟨rfl, rfl, rfl⟩
theorem witness_StepKeepsSequencerOrder :
    SequencerOrder (withActions [.command 0x65000000 0] (building 3 250)) ∧
      step (withActions [.command 0x65000000 0] (building 3 250)) =
        .next (stepped (withActions [.command 0x65000000 0] (building 3 250))) :=
  ⟨by unfold SequencerOrder; decide +kernel, rfl⟩
theorem witness_LoaderFaultIsSticky :
    let s := loading { midLoader 4 0 250 0 with fault := true } blankFrame
    exec .lnext s = .next (after .lnext s) ∧ s.l.fault = true ∧ Instr.lnext ≠ .linit := ⟨rfl, rfl, by decide⟩
theorem witness_LoaderFaultIsSticky_cleared :
    let s := withActions [.command 0x70000000 0] (loading { midLoader 4 0 250 0 with fault := true } blankFrame)
    step s = .next (stepped s) ∧ s.l.fault = true ∧ (stepped s).l.fault = false := ⟨rfl, rfl, by decide +kernel⟩
theorem witness_LoadsWriteTheOperandBus : (State.reset.setWdata maxWide).faulted = false := rfl
theorem witness_RegisterReadAndMove : (regs opA opB).faulted = false := rfl
theorem witness_NarrowingKeepsLowOrderBits : (regs maxWide opB).faulted = false := rfl
theorem witness_AddWrapsAndCarriesAcrossLimbs : (regs maxWide 1).faulted = false := rfl
theorem witness_SubWrapsAndBorrowsAcrossLimbs : (regs 0 1).faulted = false := rfl
theorem witness_IncrementAndDecrementWrap : (regs maxWide 0).faulted = false := rfl
theorem witness_MultiplyIsSchoolbookShiftAdd : (regs maxWide maxWide).faulted = false := rfl
theorem witness_DivisionIsExact :
    (regs maxWide 1).faulted = false ∧ (regs maxWide 1).reg 2 ≠ 0 ∧ (regs maxWide 0).reg 2 = 0 := by decide +kernel
theorem witness_RestoringScanIsTheDivision :
    (regs opA 1).faulted = false ∧
      ((regs opA 1).reg 2).toNat * 2 ^ 127 < 2 ^ 128 ∧ 2 ^ 128 ≤ ((regs opA 1).reg 2).toNat * 2 ^ 128 ∧
      ((regs opA maxWide).reg 2).toNat * 2 ^ 0 < 2 ^ 128 ∧ 2 ^ 128 ≤ ((regs opA maxWide).reg 2).toNat * 2 ^ 1 := by
  decide +kernel
theorem witness_ZeroDivisorIsFatal :
    (regs 5 0).faulted = false ∧ divisorOf (.wdiv 3 1 2) = some 2 ∧ divisorOf (.wmod 3 1 2) = some 2 ∧
      (regs 5 0).reg 2 = 0 := by decide +kernel
theorem witness_CompareIsTheUnsignedOrder : (regs opA opB).faulted = false := rfl
theorem witness_BitwiseCommandsActBitByBit : (regs opA opB).faulted = false := rfl
theorem witness_LeftShiftsByAnUnboundedCount :
    (regs opA 127).faulted = false ∧ (regs opA 128).faulted = false ∧ 127 < 2 ^ 16 ∧ 128 < 2 ^ 16 ∧ 65535 < 2 ^ 16 := by
  decide +kernel
theorem witness_RightShiftsByAnUnboundedCount :
    (regs opA 127).faulted = false ∧ (regs opA 128).faulted = false ∧ 127 < 2 ^ 16 ∧ 128 < 2 ^ 16 ∧ 65535 < 2 ^ 16 := by
  decide +kernel
theorem witness_ArithmeticLaws : opB ≠ 0 ∧ (regs opA opB).faulted = false := by decide +kernel
theorem witness_CrcTableIsGenerated : 0 < 256 ∧ 255 < 256 := by decide
theorem witness_CrcInitAndDigestRead :
    State.reset.faulted = false ∧ exec .crcinit State.reset = .next (after .crcinit State.reset) := ⟨rfl, rfl⟩
theorem witness_CrcPushesStepByStep :
    (withFb (headFrame demoLabel 4 250)).faulted = false ∧ 255 ≤ 255 ∧ 255 < 256 ∧ 256 < 2 ^ 16 ∧
      255 + 1 ≤ 256 ∧ 256 < 255 + 2 ∧ 255 < 2 ^ 8 ∧ 0 + 256 ≤ 256 := by decide +kernel
theorem witness_PushedBytesConcatenate :
    State.reset.faulted = false ∧ pushedBytes (.crcpb 255) State.reset = some [255] ∧
      pushedBytes (.crcpr 255 1) State.reset = some [0] ∧
      State.reset.crcAcc ^^^ 0xFFFFFFFF = digestOf [] ∧
      exec (.crcpr 255 1) State.reset = .next (after (.crcpr 255 1) State.reset) ∧
      exec .crcinit State.reset = .next (after .crcinit State.reset) :=
  ⟨rfl, rfl, by decide +kernel, rfl, rfl, rfl⟩
theorem witness_DefaultConstructionSetsOnlyTheTag :
    State.reset.faulted = false ∧ (1 ≤ 1 ∧ 1 ≤ 4) ∧ (1 ≤ 4 ∧ 4 ≤ 4) ∧ ((0 : Nat) = 0 ∨ 4 < 0) ∧
      ((5 : Nat) = 0 ∨ 4 < 5) ∧ 65535 < 2 ^ 16 := by decide
theorem witness_KindCheckLooksAtTheTagOnly :
    State.reset.faulted = false ∧
      sumAt (withFb (headFrame demoLabel 4 250)).fb 8 4 = (tagOfKind 1).toNat ∧
      sumAt (withFb (contFrame 3 demoLabel)).fb 8 4 = (tagOfKind 4).toNat ∧
      sumAt (withFb (contFrame 3 demoLabel)).fb 8 4 ≠ (tagOfKind 1).toNat ∧
      sumAt (withFb (headFrame demoLabel 4 250)).fb 8 4 ≠ (tagOfKind 4).toNat := by decide +kernel
theorem witness_FieldReads_listed :
    Listed 0 2 14 236 16 ∧ ViewFits 0 State.reset.fb ∧ Listed 3 2 0 12 16 ∧
      ViewFits 3 (withFb (dataFrame 2 countingPayload 240)).fb :=
  ⟨⟨15, 12, by decide, by decide, rfl⟩, Or.inl rfl, ⟨15, 12, by decide, by decide, rfl⟩, Or.inr (by decide +kernel)⟩
theorem witness_FieldReads_mismatch : Listed 1 2 1 48 16 ∧ ¬ ViewFits 1 State.reset.fb :=
  ⟨⟨2, 32, by decide, by decide, rfl⟩, by unfold ViewFits; decide +kernel⟩
theorem witness_FieldReadsFollowTheTable :
    State.reset.faulted = false ∧ (¬ ∃ off n, Listed 0 2 15 off n) ∧ (¬ ∃ off n, Listed 2 0 0 off n) := by
  refine ⟨rfl, ?_, ?_⟩ <;> (rintro ⟨off, n, c, b, hm, hi, -⟩; simp [fieldTable] at hm; try omega)
theorem witness_FieldWritesNeverSpill :
    (State.reset.setWdata maxWide).faulted = false ∧ Listed 0 3 0 252 4 ∧ ViewFits 0 State.reset.fb ∧
      Listed 4 2 1 48 16 ∧ ¬ ViewFits 4 State.reset.fb :=
  ⟨rfl, ⟨1, 252, by decide, by decide, rfl⟩, Or.inl rfl, ⟨2, 32, by decide, by decide, rfl⟩,
    by unfold ViewFits; decide +kernel⟩
theorem witness_FieldReadsBackWhatWasWritten :
    (withFb (finishFrame 3 250)).faulted = false ∧ Listed 2 3 0 64 16 ∧ ViewFits 2 (withFb (finishFrame 3 250)).fb :=
  ⟨rfl, ⟨1, 64, by decide, by decide, rfl⟩, Or.inr (by decide +kernel)⟩
theorem witness_ValidateWritesTheChecksum :
    State.reset.faulted = false ∧ ¬ CorrectlySealed State.reset.fb ∧
      CorrectlySealed (withFb (headFrame demoLabel 4 250)).fb :=
  ⟨rfl, by unfold CorrectlySealed; decide +kernel, by unfold CorrectlySealed; decide +kernel⟩
theorem witness_ValidatedFrameDetectsEveryByteChange :
    let t := after .fval State.reset
    exec .fval State.reset = .next t ∧ State.reset.faulted = false ∧
      (∀ a, a = 0 ∨ a = 251 ∨ a = 252 ∨ a = 255 →
        byteAt (t.setFb (withByte t.fb a (byteAt t.fb a + 1))).fb a ≠ byteAt t.fb a) ∧
      ∀ k, k < 256 → k ≠ 251 → byteAt (t.setFb (withByte t.fb 251 1)).fb k = byteAt t.fb k := by
  refine ⟨rfl, rfl, ?_, fun k hk hne => ?_⟩
  · rintro a (rfl | rfl | rfl | rfl) <;> decide +kernel
  · rw [State.setFb_fb, withByte, byteAt_writeBytes _ _ _ _ hk, if_neg (by simp; omega)]
theorem witness_PayloadChunksMoveByLanes :
    (State.reset.setWdata opA).faulted = false ∧ 0 ≤ 14 ∧ 14 ≤ 14 ∧ 14 < 15 ∧ 15 < 2 ^ 16 := by decide +kernel
theorem witness_LabelHalvesMoveByLanes :
    (State.reset.setWdata opA).faulted = false ∧ 0 ≤ 1 ∧ 1 ≤ 1 ∧ 1 < 2 ∧ 2 < 2 ^ 16 := by decide +kernel
theorem witness_SpecialRegisterReads : (building 3 250).faulted = false ∧ 7 < 8 ∧ 8 < 2 ^ 16 := by decide +kernel
theorem witness_BuilderConstruction :
    (State.reset.setLbl demoLabel).faulted = false ∧
      exec (.lblw 0) (building 3 250) = .next (after (.lblw 0) (building 3 250)) ∧ Instr.lblw 0 ≠ .binit :=
  ⟨rfl, rfl, by decide⟩
theorem witness_HeadCommandsWriteAHead :
    (building 3 250).faulted = false ∧ (building 3 250).b.index = 3 ∧ (building 3 250).b.total = 250 ∧
      (regs 4 250).reg 1 = 4 ∧ (regs 4 250).reg 2 = 250 := by decide +kernel
theorem witness_DataCommandWritesADataFrame :
    (building 3 250).faulted = false ∧ 240 < 241 ∧ 240 ≤ 240 ∧ (building 3 250).b.wroteHead = true ∧
      (building 3 250).b.wroteFinish = false ∧
      ¬ (State.reset.b.wroteHead = true ∧ State.reset.b.wroteFinish = false) := by decide +kernel
theorem witness_HandsOver_ready_and_not :
    (building 3 250).host.txReady = true ∧
      ((building 3 250).setHost { HostSide.initial with txAnswers := [false] }).host.txReady = false := ⟨rfl, rfl⟩
theorem witness_ContinuationCommandWritesAContinuation :
    (building maxWide 0).faulted = false ∧ (building maxWide 0).b.wroteHead = true ∧
      (building maxWide 0).b.wroteFinish = false ∧
      ¬ ((after .bwfin (building 3 250)).b.wroteHead = true ∧ (after .bwfin (building 3 250)).b.wroteFinish = false) :=
  by decide +kernel
theorem witness_FinishCommandWritesAFinish :
    (building maxWide 0).faulted = false ∧ (building maxWide 0).b.wroteHead = true ∧
      (building maxWide 0).b.wroteFinish = false ∧
      ¬ (State.reset.b.wroteHead = true ∧ State.reset.b.wroteFinish = false) := by decide +kernel
theorem witness_EveryEmittedFrameIsValid :
    exec .bwcont (building 3 250) = .next (after .bwcont (building 3 250)) ∧
      (after .bwcont (building 3 250)).host.txFrames =
        (building 3 250).host.txFrames ++ [lastFrame (after .bwcont (building 3 250))] := ⟨rfl, rfl⟩
theorem witness_BuilderAndLoaderAreIndependent :
    isBuilder .bwfin ∧ exec .bwfin (building 3 250) = .next (after .bwfin (building 3 250)) ∧
      isLoader .lchk ∧ exec .lchk State.reset = .next (after .lchk State.reset) := ⟨trivial, rfl, trivial, rfl⟩
theorem witness_LoaderConstruction :
    let s := State.reset.setL { midLoader 4 2 250 480 with fault := true, readfinf := true }
    s.faulted = false ∧ exec .lnext s = .next (after .lnext s) ∧ Instr.lnext ≠ .linit ∧ s.l.fault = true ∧
      s.l.readfinf = true := ⟨rfl, rfl, by decide, rfl, rfl⟩
theorem witness_ReadNext_done_and_dry :
    (State.reset.setL { midLoader 4 3 250 480 with readfinf := true }).l.readfinf = true ∧
      State.reset.faulted = false ∧ State.reset.l.readfinf = false ∧ rxAnswer State.reset = none := ⟨rfl, rfl, rfl, rfl⟩
theorem witness_ReadNext_head :
    let f := headFrame demoLabel 4 250
    rxAnswer (loading Loader.reset f) = some f ∧ Passes f (nextIndex Loader.reset) ∧
      sumAt f 8 4 = cfg.tagHead.toNat ∧ sumAt f 12 4 = 0x100 ∧ sumAt (withByte f 12 1) 12 4 = 0x101 ∧
      ¬ Passes (withByte f 12 1) (nextIndex Loader.reset) := by
  refine ⟨rfl, ?_, ?_, ?_, ?_, ?_⟩ <;> (try unfold Passes CorrectlySealed) <;> decide +kernel
theorem witness_ReadNext_finish :
    let f := finishFrame 3 250
    rxAnswer (loading (midLoader 0 2 0 0) f) = some f ∧ sumAt f 8 4 = cfg.tagFinf.toNat ∧
      (midLoader 0 2 0 0).readhead = true ∧ ((midLoader 0 2 0 0).count = 0 ∧ (midLoader 0 2 0 0).size = 0) ∧
      ¬ ((midLoader 0 2 250 0).count = 0 ∧ (midLoader 0 2 250 0).size = 0) := by
  refine ⟨rfl, ?_, rfl, ⟨rfl, rfl⟩, ?_⟩ <;> decide +kernel
theorem witness_ReadNextFollowsTheStateMachine :
    let f := dataFrame 3 countingPayload 240
    rxAnswer (loading (midLoader 4 2 250 0) f) = some f ∧ sumAt f 8 4 = cfg.tagData.toNat ∧
      Passes f (nextIndex (midLoader 4 2 250 0)) ∧ sumAt blankFrame 8 4 = 0 := by
  refine ⟨rfl, ?_, ?_, ?_⟩ <;> (try unfold Passes CorrectlySealed) <;> decide +kernel
theorem witness_DataExtractionFillsTheStaging :
    State.reset.faulted = false ∧ 240 ≤ 240 ∧ 240 < 241 ∧ 241 < 2 ^ 16 ∧
      sumAt (State.reset.setLf (dataFrame 2 countingPayload 240)).lf 8 4 = cfg.tagData.toNat ∧
      sumAt State.reset.lf 8 4 ≠ cfg.tagData.toNat := by decide +kernel
theorem witness_VerdictNeedsAFinish :
    State.reset.faulted = false ∧ State.reset.l.readfinf = false ∧
      ((midLoader 0 maxWide 250 480).index.toNat + 1) % 2 ^ 128 = (midLoader 0 maxWide 250 480).count.toNat ∧
      (midLoader 0 maxWide 250 480).fault = false ∧
      ((midLoader 4 2 250 480).index.toNat + 1) % 2 ^ 128 ≠ (midLoader 4 2 250 480).count.toNat := by decide +kernel
theorem witness_LoaderCopiesOut :
    (State.reset.setLf (headFrame demoLabel 4 250)).faulted = false ∧ SequencerOrder State.reset ∧
      State.reset.l.readhead = false := ⟨rfl, by unfold SequencerOrder; decide +kernel, rfl⟩
theorem witness_BuiltDataFrameLoadsBack :
    let s := building 3 0
    let t := after (.bwdata 240) s
    let u := loading (midLoader 4 2 250 0) (lastFrame t)
    exec (.bwdata 240) s = .next t ∧ t.host.txFrames = s.host.txFrames ++ [lastFrame t] ∧ s.b.index.toNat < 2 ^ 64 ∧
      u.faulted = false ∧ u.l.readhead = true ∧ u.l.readfinf = false ∧ nextIndex u.l = s.b.index ∧
      rxAnswer u = some (lastFrame t) := by
  refine ⟨rfl, rfl, ?_, rfl, rfl, rfl, ?_, rfl⟩ <;> decide +kernel
theorem witness_BuiltFinishGivesTheVerdict :
    let s := building 3 250
    let t := after .bwfin s
    let u := loading (midLoader 0 2 0 480) (lastFrame t)
    let u' := loading (midLoader 4 2 250 480) (lastFrame t)
    exec .bwfin s = .next t ∧ t.host.txFrames = s.host.txFrames ++ [lastFrame t] ∧ s.b.index.toNat < 2 ^ 64 ∧
      u.faulted = false ∧ u.l.readhead = true ∧ u.l.readfinf = false ∧ u.l.fault = false ∧
      nextIndex u.l = s.b.index ∧ rxAnswer u = some (lastFrame t) ∧ (u.l.count = 0 ∧ u.l.size = 0) ∧
      u'.l.count = s.b.index + 1 := by
  refine ⟨rfl, rfl, ?_, rfl, rfl, rfl, rfl, ?_, rfl, ⟨rfl, rfl⟩, ?_⟩ <;> decide +kernel

end Sys2Proof.Tests
end

/-! # Proofs of the scope statements

What every command does to the host's side, said once (`CommandEffect`); the decoder's commands are well-formed; and
the commands of one unit of the sequencer commute with replacing the other unit's record. -/

section

namespace Sys2Proof.Machine

open Sys2Proof.Safety Sys2Proof.Statements

/-! ## What a command does to the host's side -/

/-- The three things a command can do between the latch gate and its one answer: nothing on the stream ports, one frame
to emit, or one request for a frame (R9, R10, R77, R80). -/
inductive CommandEffect (i : Instr) (s : State) : State → Prop
  /-- The command answers from a state `u` in which only the unit's own fields may differ. -/
  | quiet {u : State} {st : Status} {v : Wide} (host : u.host = s.host) (bus : u.wdata = s.wdata)
      (result : st ≠ .ok → v = 0) : CommandEffect i s (u.answer st v)
  /-- A frame-writing Builder command has one frame to emit. -/
  | emits {t : State} {F : Frame} {b : Builder} (builder : isBuilder i) (writes : i ≠ .binit)
      (handsOver : HandsOver s t F b) : CommandEffect i s t
  /-- LNEXT takes one answer of the source. -/
  | receives {u : State} {v : Wide} (lnext : i = .lnext) (host : u.host = (recv s).host) (bus : u.wdata = s.wdata) :
      CommandEffect i s (u.respond v)

section Effects

variable {i : Instr} {s t : State}

/-- Answering OK after changing only the unit's own fields. -/
theorem CommandEffect.respond {u : State} {v : Wide} (host : u.host = s.host) (bus : u.wdata = s.wdata) :
    CommandEffect i s (u.respond v) := .quiet host bus fun h => absurd rfl h

/-- Raising a condition writes at most a latch or a mark of the unit, and the result is 0 (R270). -/
theorem CommandEffect.raise (c : Condition) : CommandEffect i s (raise c s) :=
  .quiet (by cases c <;> rfl) (by cases c <;> rfl) fun _ => rfl

theorem CommandEffect.writeFrame (f : Frame) (b : Builder) (builder : isBuilder i) (writes : i ≠ .binit) :
    CommandEffect i s (writeFrame f b s) := .emits builder writes (writeFrame_handsOver s f b)

theorem CommandEffect.guarded {run : State → State} (hrun : CommandEffect i s (run s)) :
    CommandEffect i s (guarded run s) := by
  unfold Machine.guarded
  split
  · exact hrun
  · exact .respond rfl rfl

/-- The latch gate adds no effect but its own answer (R266). -/
theorem CommandEffect.command {run : State → State} (h : command s run = .next t)
    (hrun : CommandEffect i s (run s)) : CommandEffect i s t := by
  cases hf : s.faulted with
  | true => cases (command_faulted s run hf).symm.trans h; exact .raise .faulted
  | false => cases (command_live s run hf).symm.trans h; exact hrun

theorem CommandEffect.checked {legal : Bool} {run : State → State} (h : checked legal s run = .next t)
    (hrun : CommandEffect i s (run s)) : CommandEffect i s t := by
  refine .command h ?_
  cases legal
  · exact .raise .illegalOperand
  · exact hrun

theorem CommandEffect.writeReg {rd : Reg} {v : State → Wide} (h : writeReg rd v s = .next t) :
    CommandEffect i s t := .command h (.respond rfl rfl)

theorem CommandEffect.answerValue {v : State → Wide} (h : answerValue v s = .next t) : CommandEffect i s t :=
  .command h (.respond rfl rfl)

theorem CommandEffect.divideReg {f : Wide → Wide → Wide} {rd ra rb : Reg} (h : divideReg f rd ra rb s = .next t) :
    CommandEffect i s t := by
  refine .command h ?_
  split
  · exact .raise .divByZero
  · exact .respond rfl rfl

theorem CommandEffect.withKind {kind : Nat} {run : Kind → State → State} (h : withKind kind s run = .next t)
    (hrun : ∀ k, CommandEffect i s (run k s)) : CommandEffect i s t := by
  refine .command h ?_
  cases kindOf kind with
  | none => exact .raise .illegalOperand
  | some k => exact hrun k

theorem CommandEffect.withField {view fld idx : Nat} {run : Field → State → State}
    (h : withField view fld idx s run = .next t) (hrun : ∀ fd, CommandEffect i s (run fd s)) :
    CommandEffect i s t := by
  refine .command h ?_
  cases fieldOf view fld idx with
  | none => exact .raise .illegalOperand
  | some fd =>
    dsimp only
    split
    · exact hrun fd
    · exact .raise .typeMismatch

/-- Done, LNEXT asks for nothing; otherwise it makes exactly one request (R223). -/
theorem CommandEffect.lnext (h : execLnext s = .next t) : CommandEffect .lnext s t := by
  refine .command h ?_
  split
  · exact .respond rfl rfl
  · cases rxAnswer s <;> exact .receives rfl rfl rfl

end Effects

/-- Every command has one of the three effects: by the shape its meaning shares with others. -/
theorem exec_effect {i : Instr} {s t : State} (h : exec i s = .next t) : CommandEffect i s t := by
  unfold exec at h
  cases i with
  | wld | wldu | wmov | wadd | wsub | wmul | winc | wdec | wand | wor | wxor | wnot | wshl | wshr | wshli | wshri =>
    exact .writeReg h
  | wrd | wcvt8 | wcvt16 | wcvt32 | wcvt64 | wcmp => exact .answerValue h
  | wdiv | wmod => exact .divideReg h
  | crcinit | crcpk | crcrd | fval | fisv | binit | linit | lgetf | lglbl => exact .command h (.respond rfl rfl)
  | crcpb | crcpr | pbw | pbr | lblw | lblr | lgdata => exact .checked h (.respond rfl rfl)
  | fnew => exact .withKind h fun _ => .respond rfl rfl
  | fchk =>
    refine .withKind h fun k => ?_
    split
    · exact .respond rfl rfl
    · exact .raise .typeMismatch
  | fget | fset => exact .withField h fun _ => .respond rfl rfl
  | bwhead | bwheadx => exact .command h (.writeFrame _ _ trivial nofun)
  | bwdata => exact .checked h (.guarded (.writeFrame _ _ trivial nofun))
  | bwcont | bwfin => exact .command h (.guarded (.writeFrame _ _ trivial nofun))
  | lnext => exact .lnext h
  | lchk =>
    refine .command h ?_
    split
    · exact .respond rfl rfl
    · exact .raise .noVerdict
  | srd rd sreg =>
    refine .command h ?_
    cases specialReg s sreg with
    | none => exact .raise .illegalOperand
    | some v => exact .respond rfl rfl

/-- Settles O8: each of the three effects ends in exactly one answer, and only a raised condition is not OK. -/
theorem oneResponsePerCommand : Obligations.OneResponsePerCommand := by
  intro i s t h
  cases exec_effect h with
  | quiet host bus result =>
    refine ⟨⟨_, _, ?_, result⟩, bus, ?_⟩
    · rw [State.answer_responses, host]
    · rw [State.answer_actions, host]
  | @receives u v _ host bus =>
    refine ⟨⟨.ok, v, ?_, fun hne => absurd rfl hne⟩, bus, ?_⟩
    · rw [State.respond_responses, host]; rfl
    · rw [State.respond_actions, host]; rfl
  | emits _ _ handsOver =>
    obtain ⟨-, ht, -⟩ | ⟨-, ht⟩ := handsOver <;>
      exact ⟨⟨.ok, _, congrArg (·.host.responses) ht, fun hne => absurd rfl hne⟩,
        congrArg (·.wdata) ht, congrArg (·.host.actions) ht⟩

/-- Settles O10: of the three effects one emits, one receives, and the third leaves the streams alone. -/
theorem atMostOneStreamOperation : Obligations.AtMostOneStreamOperation := by
  intro i s t h
  cases exec_effect h with
  | quiet host =>
    simp [host]
  | receives lnext host =>
    simp only [State.respond_txFrames, State.respond_txAnswers, State.respond_rxAnswers, State.respond_sink,
      State.respond_sinkPos, host]
    exact ⟨.inl rfl, .inl rfl, .inr ⟨lnext, rfl⟩, fun _ => ⟨rfl, rfl⟩⟩
  | emits builder writes handsOver =>
    obtain ⟨-, ht, -⟩ | ⟨-, ht⟩ := handsOver
    · have frames := congrArg (·.host.txFrames) ht
      refine ⟨.inr ⟨builder, writes, _, frames⟩, .inr ⟨builder, writes, congrArg (·.host.txAnswers) ht⟩,
        .inl (congrArg (·.host.rxAnswers) ht), fun same => ?_⟩
      exact absurd (frames.symm.trans same) (by simp [answered])
    · exact ⟨.inl (congrArg (·.host.txFrames) ht), .inr ⟨builder, writes, congrArg (·.host.txAnswers) ht⟩,
        .inl (congrArg (·.host.rxAnswers) ht),
        fun _ => ⟨congrArg (·.host.sink) ht, congrArg (·.host.sinkPos) ht⟩⟩

/-! ## Replacing a record that a command does not use -/

/-- The replacement `g` concerns neither the latch gate nor the answer: the latch reads as before, and raising a
condition before or after it is the same. -/
structure Unseen (g : State → State) : Prop where
  faulted : ∀ s, (g s).faulted = s.faulted
  raise : ∀ c, Function.Commute (raise c) g

section Commuting

variable {g run : State → State} {s t : State}

/-- A run that commutes with the replacement does so behind the latch gate. -/
theorem command_commute (hg : Unseen g) (hrun : Function.Commute run g) (h : command s run = .next t) :
    command (g s) run = .next (g t) := by
  cases hf : s.faulted with
  | true =>
    cases (command_faulted s run hf).symm.trans h
    rw [command_faulted _ run ((hg.faulted s).trans hf)]
    exact congrArg _ (hg.raise .faulted s)
  | false =>
    cases (command_live s run hf).symm.trans h
    rw [command_live _ run ((hg.faulted s).trans hf), hrun s]

/-- The range check reads the immediate alone (R109). -/
theorem checked_commute {legal : Bool} (hg : Unseen g) (hrun : Function.Commute run g)
    (h : checked legal s run = .next t) : checked legal (g s) run = .next (g t) := by
  refine command_commute hg (fun s => ?_) h
  cases legal
  · exact hg.raise .illegalOperand s
  · exact hrun s

end Commuting

/-- `s` with the Loader's record and current frame replaced. -/
def withLoader (l : Loader) (lf : Frame) (s : State) : State := (s.setL l).setLf lf

theorem unseen_withLoader (l : Loader) (lf : Frame) : Unseen (withLoader l lf) :=
  ⟨fun _ => rfl, fun c _ => by cases c <;> rfl⟩

theorem unseen_setB (b : Builder) : Unseen (State.setB · b) :=
  ⟨fun _ => rfl, fun c _ => by cases c <;> rfl⟩

/-- Emitting a frame and keeping the Builder's books does not meet the Loader. -/
theorem writeFrame_withLoader (f : Frame) (b : Builder) (l : Loader) (lf : Frame) (s : State) :
    writeFrame f b (withLoader l lf s) = withLoader l lf (writeFrame f b s) := by
  cases h : s.host.txReady with
  | true =>
    rw [writeFrame, writeFrame, emit_ready s f h, emit_ready (withLoader l lf s) f h]; rfl
  | false =>
    rw [writeFrame, writeFrame, emit_notReady s f h, emit_notReady (withLoader l lf s) f h]; rfl

/-- The guard reads the Builder's record alone (R202). -/
theorem guarded_commute_withLoader {run : State → State} {l : Loader} {lf : Frame}
    (hrun : Function.Commute run (withLoader l lf)) : Function.Commute (guarded run) (withLoader l lf) := by
  intro s
  cases h : builderOpen s.b with
  | true => rw [guarded_open s run h, guarded_open (withLoader l lf s) run h, hrun s]
  | false => rw [guarded_closed s run h, guarded_closed (withLoader l lf s) run h]; rfl

/-- A Builder command's run commutes with replacing the Loader's record and frame (R11). -/
theorem exec_withLoader {i : Instr} {s t : State} (l : Loader) (lf : Frame) (hi : isBuilder i)
    (h : exec i s = .next t) : exec i (withLoader l lf s) = .next (withLoader l lf t) := by
  unfold exec at h ⊢
  have hg := unseen_withLoader l lf
  cases i with
  | binit => exact command_commute hg (fun _ => rfl) h
  | bwhead | bwheadx => exact command_commute hg (fun _ => writeFrame_withLoader _ _ l lf _) h
  | bwdata => exact checked_commute hg (guarded_commute_withLoader fun _ => writeFrame_withLoader _ _ l lf _) h
  | bwcont | bwfin => exact command_commute hg (guarded_commute_withLoader fun _ => writeFrame_withLoader _ _ l lf _) h
  | _ => exact hi.elim

/-- A Loader command's run commutes with replacing the Builder's record (R11). -/
theorem exec_setB {i : Instr} {s t : State} (b : Builder) (hi : isLoader i) (h : exec i s = .next t) :
    exec i (s.setB b) = .next (t.setB b) := by
  unfold exec at h ⊢
  have hg := unseen_setB b
  cases i with
  | linit | lgetf | lglbl => exact command_commute hg (fun _ => rfl) h
  | lgdata => exact checked_commute hg (fun _ => rfl) h
  | lnext =>
    refine command_commute hg (fun s => ?_) h
    cases hdone : s.l.readfinf with
    | true => simp only [State.setB_l, hdone, if_true]; rfl
    | false =>
      simp only [State.setB_l, hdone, rxAnswer, State.setB_host]
      cases s.host.rxAnswers.headD none <;> rfl
  | lchk =>
    refine command_commute hg (fun s => ?_) h
    cases hdone : s.l.readfinf with
    | true => simp only [State.setB_l, hdone]; rfl
    | false => simp only [State.setB_l, hdone]; exact hg.raise .noVerdict s
  | _ => exact hi.elim

/-- Settles O52: a command of one of the two commutes with replacing the other's record. -/
theorem builderAndLoaderAreIndependent : Obligations.BuilderAndLoaderAreIndependent :=
  ⟨fun _ _ _ l lf hi h => exec_withLoader l lf hi h, fun _ _ _ b hi h => exec_setB b hi h⟩

end Sys2Proof.Machine

/-! ## The decoded command -/

namespace Sys2Proof

open Sys2Proof.Machine

@[simp] theorem fits_imm16Of (c : Word32) : fits 16 (imm16Of c) = true := decide_eq_true (BitVec.isLt _)
@[simp] theorem fits_a8Of (c : Word32) : fits 8 (a8Of c) = true := decide_eq_true (BitVec.isLt _)
@[simp] theorem fits_viewOf (c : Word32) : fits 4 (viewOf c) = true := decide_eq_true (BitVec.isLt _)
@[simp] theorem fits_fldOf (c : Word32) : fits 4 (fldOf c) = true := decide_eq_true (BitVec.isLt _)
@[simp] theorem fits_idxOf (c : Word32) : fits 12 (idxOf c) = true := decide_eq_true (BitVec.isLt _)

/-- A row's immediates are fields of the word, so each fits its field (R91, R93). -/
theorem opcodeRow_wellFormed {op : Nat} {c : Word32} {row : Row} (h : opcodeRow op c = some row) :
    row.command.wellFormed = true := by
  unfold opcodeRow at h
  split at h <;> cases h <;> simp [Instr.wellFormed]

/-- A word decodes to `i` exactly when its opcode's row carries `i` and no must-be-zero bit is 1 (R96). -/
theorem decode_eq_ok_iff (c : Word32) (i : Instr) : decode c = .ok i ↔
    ∃ row, opcodeRow (opOf c) c = some row ∧ c &&& maskOf row.format = matchOf (opOf c) ∧ row.command = i := by
  unfold decode
  cases opcodeRow (opOf c) c with
  | none => simp
  | some row => by_cases hm : c &&& maskOf row.format = matchOf (opOf c) <;> simp [hm]

/-- The decoder yields well-formed instructions only. -/
theorem decode_wellFormed {c : Word32} {i : Instr} (h : decode c = .ok i) : i.wellFormed = true := by
  obtain ⟨row, hrow, -, rfl⟩ := (decode_eq_ok_iff c i).mp h
  exact opcodeRow_wellFormed hrow

/-- Settles O5: the step on a command word is `runWord`, and a word that decodes is run by `exec`. -/
theorem stepRunsDecodedCommand : Obligations.StepRunsDecodedCommand := by
  intro s c v rest i hact hdec
  refine ⟨decode_wellFormed hdec, ?_⟩
  rw [step_command s c v rest hact, runWord_decoded _ c i hdec]

end Sys2Proof

end

/-! # Proofs of the state statements

What every command writes into the unit's record, said once along the rows of R20 (`StateWrite`), and what one step can
be (`StepEffect`); then the state table, the reset values, the sticky fault and the sequencer's invariant. -/

section

namespace Sys2Proof.Machine

open Sys2Proof.Safety Sys2Proof.Statements

/-! ## What a command writes -/

/-- The record a frame-writing Builder command leaves, from the record `b` before it (R206 to R209). -/
inductive BuilderBooks (b : Builder) : Instr → Builder → Prop
  | bwhead : BuilderBooks b .bwhead (afterHead b)
  | bwheadx {ra rb : Reg} : BuilderBooks b (.bwheadx ra rb) (afterHead b)
  | bwdata {size : Nat} {total : Wide} (isOpen : builderOpen b = true) :
      BuilderBooks b (.bwdata size) { b with index := wideInc b.index, total := total }
  | bwcont (isOpen : builderOpen b = true) : BuilderBooks b .bwcont { b with index := wideInc b.index }
  | bwfin (isOpen : builderOpen b = true) : BuilderBooks b .bwfin { b with wroteFinish := true }

/-- What a command can leave behind: its answer alone, or one row of the table of R20 written and answered. -/
inductive StateWrite (s : State) : Instr → State → Prop
  | nothing {i : Instr} {st : Status} {v : Wide} : StateWrite s i (s.answer st v)
  | register {i : Instr} {rd : Reg} {v : Wide} (dest : destination i = some rd) :
      StateWrite s i ((s.setReg rd v).respond 0)
  | crc {i : Instr} {acc : Word32} (listed : writesCrc i) : StateWrite s i ((s.setCrc acc).respond 0)
  | frameBuffer {i : Instr} {f : Frame} (listed : writesFb i) : StateWrite s i ((s.setFb f).respond 0)
  | payload {i : Instr} {p : Payload} {v : Wide} (listed : writesPb i) : StateWrite s i ((s.setPb p).respond v)
  | label {i : Instr} {v : Label} (listed : writesLbl i) : StateWrite s i ((s.setLbl v).respond 0)
  | binit : StateWrite s .binit ((s.setB { Builder.reset with label := s.lbl }).respond 0)
  /-- The frame goes to the host's sink, which keeps its canonical form, and the books are written. -/
  | books {i : Instr} {b : Builder} {h : HostSide} (books : BuilderBooks s.b i b) (sink : s.host.sink.wf → h.sink.wf) :
      StateWrite s i ((s.setB b).setHost h)
  | linit : StateWrite s .linit (((s.setL Loader.reset).setLf blankFrame).respond 0)
  | noFrame : StateWrite s .lnext (((recv s).setL (beginRead s.l)).respond 0)
  | received {f : Frame} :
      StateWrite s .lnext ((((recv s).setLf f).setL (dispatchFrame f (judge f (beginRead s.l)))).respond 1)
  | divByZero {i : Instr} {rb : Reg} (divisor : divisorOf i = some rb) (zero : s.reg rb = 0) :
      StateWrite s i (raise .divByZero s)
  | refused {i : Instr} : StateWrite s i (raise .illegalOperand s)

/-- A command either meets the set latch or runs (R266, R268). -/
theorem command_inv {s t : State} {run : State → State} (h : command s run = .next t) :
    t = raise .faulted s ∨ t = run s := by
  cases hf : s.faulted with
  | true => cases (command_faulted s run hf).symm.trans h; exact .inl rfl
  | false => cases (command_live s run hf).symm.trans h; exact .inr rfl

section Writes

variable {i : Instr} {s t : State}

theorem StateWrite.command {run : State → State} (h : command s run = .next t) (hrun : StateWrite s i (run s)) :
    StateWrite s i t := by
  obtain rfl | rfl := command_inv h
  · exact .nothing
  · exact hrun

theorem StateWrite.checked {legal : Bool} {run : State → State} (h : checked legal s run = .next t)
    (hrun : StateWrite s i (run s)) : StateWrite s i t := by
  refine .command h ?_
  cases legal
  · exact .refused
  · exact hrun

theorem StateWrite.writeReg {rd : Reg} {v : State → Wide} (h : writeReg rd v s = .next t)
    (dest : destination i = some rd) : StateWrite s i t := .command h (.register dest)

theorem StateWrite.answerValue {v : State → Wide} (h : answerValue v s = .next t) : StateWrite s i t :=
  .command h .nothing

theorem StateWrite.divideReg {f : Wide → Wide → Wide} {rd ra rb : Reg} (h : divideReg f rd ra rb s = .next t)
    (dest : destination i = some rd) (divisor : divisorOf i = some rb) : StateWrite s i t := by
  refine .command h ?_
  split
  · exact .divByZero divisor ‹_›
  · exact .register dest

theorem StateWrite.withKind {kind : Nat} {run : Kind → State → State} (h : withKind kind s run = .next t)
    (hrun : ∀ k, StateWrite s i (run k s)) : StateWrite s i t := by
  refine .command h ?_
  cases kindOf kind with
  | none => exact .refused
  | some k => exact hrun k

theorem StateWrite.withField {view fld idx : Nat} {run : Field → State → State}
    (h : withField view fld idx s run = .next t) (hrun : ∀ fd, StateWrite s i (run fd s)) : StateWrite s i t := by
  refine .command h ?_
  cases fieldOf view fld idx with
  | none => exact .refused
  | some fd =>
    dsimp only
    split
    · exact hrun fd
    · exact .nothing

/-- Emitting a frame keeps the sink's canonical form, whether the host takes it or not (R77, R79). -/
theorem emit_sink_wf (f : Frame) (h : s.host.sink.wf) : (emit f s).host.sink.wf := by
  cases hr : s.host.txReady with
  | true => rw [emit_ready s f hr]; exact Memory.store_wf _ _ _ h
  | false => rw [emit_notReady s f hr]; exact h

/-- Emitting a frame is an affair of the host's side alone. -/
theorem emit_eq_setHost (f : Frame) : emit f s = s.setHost (emit f s).host := by
  cases hr : s.host.txReady with
  | true => rw [emit_ready s f hr]; rfl
  | false => rw [emit_notReady s f hr]; rfl

theorem StateWrite.writeFrame {f : Frame} {b : Builder} (hb : BuilderBooks s.b i b) :
    StateWrite s i (writeFrame f b s) := by
  rw [Machine.writeFrame, emit_eq_setHost f]
  exact .books hb (emit_sink_wf f)

theorem StateWrite.guarded {run : State → State} (hrun : builderOpen s.b = true → StateWrite s i (run s)) :
    StateWrite s i (guarded run s) := by
  cases h : builderOpen s.b with
  | true => rw [guarded_open s run h]; exact hrun h
  | false => rw [guarded_closed s run h]; exact .nothing

end Writes

/-- Every command writes what its row of R20 lets it write: by the shape its meaning shares with others. -/
theorem exec_write {i : Instr} {s t : State} (h : exec i s = .next t) : StateWrite s i t := by
  unfold exec at h
  cases i with
  | wld | wldu | wmov | wadd | wsub | wmul | winc | wdec | wand | wor | wxor | wnot | wshl | wshr | wshli | wshri =>
    exact .writeReg h rfl
  | wrd | wcvt8 | wcvt16 | wcvt32 | wcvt64 | wcmp => exact .answerValue h
  | crcrd | fisv => exact .command h .nothing
  | wdiv | wmod => exact .divideReg h rfl rfl
  | crcinit | crcpk => exact .command h (.crc trivial)
  | crcpb | crcpr => exact .checked h (.crc trivial)
  | fnew => exact .withKind h fun _ => .frameBuffer trivial
  | fchk =>
    refine .withKind h fun k => ?_
    split <;> exact .nothing
  | fget => exact .withField h fun _ => .nothing
  | fset => exact .withField h fun _ => .frameBuffer trivial
  | fval | lgetf => exact .command h (.frameBuffer trivial)
  | pbw | lgdata => exact .checked h (.payload trivial)
  | pbr | lblr => exact .checked h .nothing
  | lblw => exact .checked h (.label trivial)
  | lglbl => exact .command h (.label trivial)
  | binit => exact .command h .binit
  | bwhead => exact .command h (.writeFrame .bwhead)
  | bwheadx => exact .command h (.writeFrame .bwheadx)
  | bwdata => exact .checked h (.guarded fun isOpen => .writeFrame (.bwdata isOpen))
  | bwcont => exact .command h (.guarded fun isOpen => .writeFrame (.bwcont isOpen))
  | bwfin => exact .command h (.guarded fun isOpen => .writeFrame (.bwfin isOpen))
  | linit => exact .command h .linit
  | lnext =>
    refine .command h ?_
    split
    · exact .nothing
    · cases rxAnswer s with
      | none => exact .noFrame
      | some f => exact .received
  | lchk =>
    refine .command h ?_
    split <;> exact .nothing
  | srd rd sreg =>
    refine .command h ?_
    cases specialReg s sreg with
    | none => exact .refused
    | some v => exact .register rfl

/-! ## What a step can be -/

/-- One step, by the host's pending action: idle, a command, an illegal word, a seek or a reset. -/
inductive StepEffect (s : State) : State → Prop
  | idle : StepEffect s s
  | command {t : State} {c : Word32} {v : Wide} {i : Instr} (pending : s.host.actions.head? = some (.command c v))
      (decodes : decode c = .ok i) (runs : exec i ((dropAction s).setWdata v) = .next t) : StepEffect s t
  | latched {v : Wide} : StepEffect s (raise .faulted ((dropAction s).setWdata v))
  | illegal {v : Wide} : StepEffect s (raise .illegalCommand ((dropAction s).setWdata v))
  | seek {pos : Nat} : StepEffect s (seekSink pos (dropAction s))
  | reset (pending : s.host.actions.head? = some .reset) : StepEffect s (resetUnit (dropAction s))

theorem step_effect {s t : State} (h : step s = .next t) : StepEffect s t := by
  unfold step at h
  split at h
  case h_1 => cases h; exact .idle
  case h_2 c v rest pending =>
    cases hdec : decode c with
    | ok i =>
      rw [runWord_decoded _ c i hdec] at h
      exact .command (by rw [pending]; rfl) hdec h
    | error e =>
      rw [runWord_illegal _ c e hdec] at h
      obtain rfl | rfl := command_inv h
      · exact .latched
      · exact .illegal
  case h_3 => cases h; exact .seek
  case h_4 pending => cases h; exact .reset (by rw [pending]; rfl)

/-! ## The Loader's dispatch -/

/-- No arm of the dispatch touches the fault flag (R225 is its only writer in LNEXT). -/
@[simp] theorem dispatchFrame_fault (f : Frame) (l : Loader) : (dispatchFrame f l).fault = l.fault := by
  unfold dispatchFrame
  split_ifs <;> rfl

/-! ## The sequencer's invariant -/

/-- The Builder's part of `SequencerOrder`. -/
structure BuilderOrder (b : Builder) : Prop where
  head_of_finish : b.wroteFinish = true → b.wroteHead = true
  empty : b.wroteHead = false → b.index = 0 ∧ b.total = 0

/-- The Loader's part of `SequencerOrder`. -/
structure LoaderOrder (l : Loader) : Prop where
  head_of_finish : l.readfinf = true → l.readhead = true
  started_of_head : l.readhead = true → l.started = true
  started_of_fault : l.fault = true → l.started = true
  initial : l.started = false → l = Loader.reset
  empty : l.readhead = false → l.label = zeroBuffer 32 ∧ l.count = 0 ∧ l.size = 0 ∧ l.dindex = 0

theorem sequencerOrder_iff (s : State) :
    SequencerOrder s ↔ BuilderOrder s.b ∧ LoaderOrder s.l ∧ s.host.sink.wf :=
  ⟨fun ⟨hb, hf, hh, hl, hi, hbe, hle, hm⟩ => ⟨⟨hb, hbe⟩, ⟨hf, hh, hl, hi, hle⟩, hm⟩,
    fun ⟨⟨hb, hbe⟩, ⟨hf, hh, hl, hi, hle⟩, hm⟩ => ⟨hb, hf, hh, hl, hi, hbe, hle, hm⟩⟩

/-- A Builder just constructed has written and counted nothing, whatever its label (R201). -/
theorem builderOrder_construct (label : Label) : BuilderOrder { Builder.reset with label := label } :=
  ⟨nofun, fun _ => ⟨rfl, rfl⟩⟩

/-- A Loader just constructed holds its construction values (R221). -/
theorem loaderOrder_reset : LoaderOrder Loader.reset :=
  ⟨nofun, nofun, nofun, fun _ => rfl, fun _ => ⟨rfl, rfl, rfl, rfl⟩⟩

/-- An open Builder has its Head written (R202). -/
theorem wroteHead_of_builderOpen {b : Builder} (h : builderOpen b = true) : b.wroteHead = true :=
  (Bool.and_eq_true_iff.mp h).1

/-- Once the Head is written the Builder's order holds, whatever has been counted. -/
theorem BuilderOrder.of_wroteHead {b : Builder} (h : b.wroteHead = true) : BuilderOrder b :=
  ⟨fun _ => h, fun hn => absurd (h.symm.trans hn) nofun⟩

/-- A frame-writing command that keeps books at all leaves the Head written: BWHEAD and BWHEADX write it, the others
run behind the guard (R202, R206). -/
theorem BuilderBooks.order {i : Instr} {b b' : Builder} (h : BuilderBooks b i b') : BuilderOrder b' := by
  cases h with
  | bwhead | bwheadx => exact .of_wroteHead rfl
  | bwdata isOpen | bwcont isOpen | bwfin isOpen =>
    exact .of_wroteHead (wroteHead_of_builderOpen (b := b) isOpen)

/-- LNEXT begins by marking the Loader started, and captures nothing (R224). -/
theorem LoaderOrder.beginRead {l : Loader} (h : LoaderOrder l) : LoaderOrder (beginRead l) :=
  ⟨h.head_of_finish, fun _ => rfl, fun _ => rfl, nofun, h.empty⟩

/-- The validation of a started Loader writes the fault flag alone (R225). -/
theorem LoaderOrder.judge {l : Loader} (f : Frame) (h : LoaderOrder l) (hs : l.started = true) :
    LoaderOrder (judge f l) :=
  ⟨h.head_of_finish, h.started_of_head, fun _ => hs, fun hn => absurd (hs.symm.trans hn) nofun, h.empty⟩

/-- Each arm of the dispatch, on a started Loader: a Head is recorded, or one is there already, or nothing changes
(R226 to R229). -/
theorem LoaderOrder.dispatchFrame {l : Loader} (f : Frame) (h : LoaderOrder l) (hs : l.started = true) :
    LoaderOrder (dispatchFrame f l) := by
  have notInitial : ∀ {p : Prop}, l.started = false → p := fun hn => absurd (hs.symm.trans hn) nofun
  have notEmpty : ∀ {p : Prop}, l.readhead = true → l.readhead = false → p :=
    fun hh hn => absurd (hh.symm.trans hn) nofun
  unfold Machine.dispatchFrame
  split_ifs with head version finish provisional data
  · exact ⟨fun _ => rfl, fun _ => hs, fun _ => hs, notInitial, nofun⟩
  · exact h
  · exact ⟨fun _ => finish.2.1, fun _ => hs, fun _ => hs, notInitial, notEmpty finish.2.1⟩
  · exact ⟨fun _ => finish.2.1, fun _ => hs, fun _ => hs, notInitial, notEmpty finish.2.1⟩
  · exact ⟨h.head_of_finish, fun _ => hs, fun _ => hs, notInitial, notEmpty data.2.1⟩
  · exact h

/-- Every command keeps the invariant: only the sequencer's commands write the fields it speaks of. -/
theorem exec_keeps_sequencerOrder {i : Instr} {s t : State} (hs : SequencerOrder s) (h : exec i s = .next t) :
    SequencerOrder t := by
  rw [sequencerOrder_iff] at hs ⊢
  obtain ⟨hb, hl, hm⟩ := hs
  have started : LoaderOrder (beginRead s.l) := hl.beginRead
  cases exec_write h with
  | binit => exact ⟨builderOrder_construct s.lbl, hl, hm⟩
  | books books sink => exact ⟨books.order, hl, sink hm⟩
  | linit => exact ⟨hb, loaderOrder_reset, hm⟩
  | noFrame => exact ⟨hb, started, hm⟩
  | @received f => exact ⟨hb, (started.judge f rfl).dispatchFrame f rfl, hm⟩
  | nothing | register | crc | frameBuffer | payload | label | divByZero | refused => exact ⟨hb, hl, hm⟩

/-- A reset unit has the invariant beside any sink in canonical form. -/
theorem sequencerOrder_resetUnit {s : State} (h : s.host.sink.wf) : SequencerOrder (resetUnit s) :=
  (sequencerOrder_iff _).mpr ⟨builderOrder_construct (zeroBuffer 32), loaderOrder_reset, h⟩

/-- Settles O14: a step is a command, which keeps the invariant, or a reset, which establishes it, or leaves the fields
it speaks of alone. -/
theorem stepKeepsSequencerOrder : Obligations.StepKeepsSequencerOrder := by
  intro s t hs h
  cases step_effect h with
  | @command _ _ v _ _ _ runs => exact exec_keeps_sequencerOrder (s := (dropAction s).setWdata v) hs runs
  | reset => exact sequencerOrder_resetUnit ((sequencerOrder_iff s).mp hs).2.2
  | idle | latched | illegal | seek => exact hs

/-- Settles O15: the reset state is a reset unit beside an empty sink. -/
theorem resetHasSequencerOrder : Obligations.ResetHasSequencerOrder :=
  sequencerOrder_resetUnit (s := State.reset) .nil

/-! ## The sticky fault -/

/-- A set fault survives every command but LINIT (R225). -/
theorem exec_keeps_loader_fault {i : Instr} {s t : State} (h : exec i s = .next t) (hf : s.l.fault = true)
    (hi : i ≠ .linit) : t.l.fault = true := by
  cases exec_write h with
  | linit => exact absurd rfl hi
  | received => simp [judge, beginRead, hf]
  | nothing | register | crc | frameBuffer | payload | label | binit | books | noFrame | divByZero | refused => exact hf

/-- Settles O16: of the steps only a reset and the command LINIT clear a set fault. -/
theorem loaderFaultIsSticky : Obligations.LoaderFaultIsSticky := by
  refine ⟨fun i s t => exec_keeps_loader_fault, fun s t h hf hclear => ?_⟩
  have kept : t.l.fault ≠ true := by simp [hclear]
  cases step_effect h with
  | reset pending => exact .inl pending
  | @command _ c v i pending decodes runs =>
    by_cases hi : i = .linit
    · exact .inr ⟨c, v, pending, hi ▸ decodes⟩
    · exact absurd (exec_keeps_loader_fault runs hf hi) kept
  | idle | latched | illegal | seek => exact absurd hf kept

/-! ## The reset state -/

/-- Every wide register is 0 after reset (R37). -/
@[simp] theorem reset_reg (r : Reg) : State.reset.reg r = 0 := by
  simp [State.reset, State.reg]

/-- BINIT constructs the Builder with the staged label (R201). -/
theorem exec_binit_builder {s t : State} (hf : s.faulted = false) (h : exec .binit s = .next t) :
    t.b = { Builder.reset with label := s.lbl } := by
  unfold exec at h
  cases (command_live s _ hf).symm.trans h
  rfl

/-- LINIT constructs the Loader and clears its current frame (R221). -/
theorem exec_linit_loader {s t : State} (hf : s.faulted = false) (h : exec .linit s = .next t) :
    t.l = Loader.reset ∧ t.lf = blankFrame := by
  unfold exec at h
  cases (command_live s _ hf).symm.trans h
  exact ⟨rfl, rfl⟩

/-- Settles O12: the reset values are read off the record, and the two constructions give the same records. -/
theorem resetStateValues : Obligations.ResetStateValues := by
  refine ⟨reset_reg, rfl, fun a _ => ⟨byteAt_zeroBuffer 256 a, byteAt_zeroBuffer 256 a⟩,
    fun a _ => byteAt_zeroBuffer 240 a,
    fun a _ => ⟨byteAt_zeroBuffer 32 a, byteAt_zeroBuffer 32 a, byteAt_zeroBuffer 32 a⟩,
    rfl, rfl, rfl, rfl, rfl, rfl, by decide, fun s t hf hlbl h => ?_, fun s t hf h => exec_linit_loader hf h⟩
  have zero : s.lbl = zeroBuffer 32 := buffer_ext fun a ha => (hlbl a ha).trans (byteAt_zeroBuffer 32 a).symm
  rw [exec_binit_builder hf h, zero]
  rfl

/-! ## The state table -/

section Table

variable {i : Instr} {s t : State}

/-- No book-keeping touches the Builder's label. -/
theorem BuilderBooks.label {b b' : Builder} (h : BuilderBooks b i b') : b'.label = b.label := by
  cases h <;> rfl

theorem BuilderBooks.index {b b' : Builder} (h : BuilderBooks b i b') (hne : b'.index ≠ b.index) : writesIndex i := by
  cases h with
  | bwhead | bwheadx | bwdata | bwcont => exact trivial
  | bwfin => exact absurd rfl hne

theorem BuilderBooks.total {b b' : Builder} (h : BuilderBooks b i b') (hne : b'.total ≠ b.total) :
    ∃ n, i = .bwdata n := by
  cases h with
  | @bwdata size => exact ⟨size, rfl⟩
  | bwhead | bwheadx | bwcont | bwfin => exact absurd rfl hne

theorem BuilderBooks.wroteHead {b b' : Builder} (h : BuilderBooks b i b') (hne : b'.wroteHead ≠ b.wroteHead) :
    writesHeadFlag i := by
  cases h with
  | bwhead | bwheadx => exact trivial
  | bwdata | bwcont | bwfin => exact absurd rfl hne

theorem BuilderBooks.wroteFinish {b b' : Builder} (h : BuilderBooks b i b') (hne : b'.wroteFinish ≠ b.wroteFinish) :
    i = .bwfin := by
  cases h with
  | bwfin => rfl
  | bwhead | bwheadx | bwdata | bwcont => exact absurd rfl hne

/-- A register that changes is the command's `rd`. -/
theorem StateWrite.reg (h : StateWrite s i t) {r : Reg} (hne : t.reg r ≠ s.reg r) : destination i = some r := by
  cases h with
  | @register _ rd v dest =>
    by_cases hr : r = rd
    · exact hr ▸ dest
    · exact absurd (State.setReg_reg_ne s rd r v hr) hne
  | _ => exact absurd rfl hne

theorem StateWrite.crcAcc (h : StateWrite s i t) (hne : t.crcAcc ≠ s.crcAcc) : writesCrc i := by
  cases h with
  | crc listed => exact listed
  | _ => exact absurd rfl hne

theorem StateWrite.fb (h : StateWrite s i t) (hne : t.fb ≠ s.fb) : writesFb i := by
  cases h with
  | frameBuffer listed => exact listed
  | _ => exact absurd rfl hne

theorem StateWrite.lf (h : StateWrite s i t) (hne : t.lf ≠ s.lf) : i = .linit ∨ i = .lnext := by
  cases h with
  | linit => exact .inl rfl
  | received => exact .inr rfl
  | _ => exact absurd rfl hne

theorem StateWrite.pb (h : StateWrite s i t) (hne : t.pb ≠ s.pb) : writesPb i := by
  cases h with
  | payload listed => exact listed
  | _ => exact absurd rfl hne

theorem StateWrite.lbl (h : StateWrite s i t) (hne : t.lbl ≠ s.lbl) : writesLbl i := by
  cases h with
  | label listed => exact listed
  | _ => exact absurd rfl hne

/-- The Builder's record changes by BINIT or by the book-keeping of a frame-writing command. -/
theorem StateWrite.builder (h : StateWrite s i t) : t.b = s.b ∨ i = .binit ∨ BuilderBooks s.b i t.b := by
  cases h with
  | binit => exact .inr (.inl rfl)
  | books books => exact .inr (.inr books)
  | _ => exact .inl rfl

/-- A field of the Builder that changes does so by BINIT or by a command whose book-keeping changes it. -/
theorem StateWrite.builder_field {α : Type} {field : Builder → α} {p : Prop} (h : StateWrite s i t)
    (hne : field t.b ≠ field s.b) (hbooks : BuilderBooks s.b i t.b → field t.b ≠ field s.b → p) : i = .binit ∨ p := by
  obtain same | construct | books := h.builder
  · exact absurd (congrArg field same) hne
  · exact .inl construct
  · exact .inr (hbooks books hne)

theorem StateWrite.l (h : StateWrite s i t) (hne : t.l ≠ s.l) : i = .linit ∨ i = .lnext := by
  cases h with
  | linit => exact .inl rfl
  | noFrame | received => exact .inr rfl
  | _ => exact absurd rfl hne

theorem StateWrite.faulted (h : StateWrite s i t) (hne : t.faulted ≠ s.faulted) :
    ∃ rb, divisorOf i = some rb ∧ s.reg rb = 0 := by
  cases h with
  | divByZero divisor zero => exact ⟨_, divisor, zero⟩
  | _ => exact absurd rfl hne

/-- `ILL` changes only together with the answer ILLEGAL_OPERAND (R263). -/
theorem StateWrite.ill (h : StateWrite s i t) (hne : t.ill ≠ s.ill) :
    t.host.responses = s.host.responses ++ [⟨.illegalOperand, 0⟩] := by
  cases h with
  | refused => rfl
  | _ => exact absurd rfl hne

/-- A word that is no command changes no field but `ILL`, and that with the answer ILLEGAL_COMMAND (R108, R262). -/
theorem step_illegalWord {c : Word32} {v : Wide} {rest : List HostAction} {e : Illegal}
    (pending : s.host.actions = .command c v :: rest) (hdec : decode c = .error e) (h : step s = .next t) :
    t = { s with ill := t.ill, wdata := v, host := t.host } ∧
      (t.ill ≠ s.ill → t.host.responses = s.host.responses ++ [⟨.illegalCommand, 0⟩]) := by
  rw [step_command s c v rest pending, runWord_illegal _ c e hdec] at h
  obtain rfl | rfl := command_inv h
  · exact ⟨rfl, fun hne => absurd rfl hne⟩
  · exact ⟨rfl, fun _ => rfl⟩

end Table

/-- Settles O9: the writer of each field is read off the one write a command makes; the reset column is `State.reset`. -/
theorem onlyListedCommandsWrite : Obligations.OnlyListedCommandsWrite := by
  refine ⟨fun i s t h => ?_, fun s t c v rest e pending hdec h => step_illegalWord pending hdec h, reset_reg, rfl,
    fun a _ => ⟨byteAt_zeroBuffer 256 a, byteAt_zeroBuffer 256 a⟩, fun a _ => byteAt_zeroBuffer 240 a,
    fun a _ => ⟨byteAt_zeroBuffer 32 a, byteAt_zeroBuffer 32 a, byteAt_zeroBuffer 32 a⟩,
    rfl, rfl, rfl, rfl, rfl, rfl, rfl, rfl, rfl, rfl, rfl, rfl, rfl, rfl⟩
  have w : StateWrite s i t := exec_write h
  refine ⟨fun r => w.reg, w.crcAcc, w.fb, w.lf, w.pb, w.lbl, fun hne => ?label, fun hne => ?index,
    fun hne => w.builder_field hne BuilderBooks.total, fun hne => ?head,
    fun hne => w.builder_field hne BuilderBooks.wroteFinish, w.l, w.faulted, w.ill⟩
  case label =>
    exact (w.builder_field hne fun books changed => changed books.label).resolve_right id
  case index =>
    obtain rfl | listed := w.builder_field hne BuilderBooks.index
    · exact trivial
    · exact listed
  case head =>
    obtain rfl | listed := w.builder_field hne BuilderBooks.wroteHead
    · exact trivial
    · exact listed

end Sys2Proof.Machine

end

/-! # Proof of the memory statement

The host's own actions between commands: the step's equations for them, read as the statement's record updates. -/

section

namespace Sys2Proof.Machine

/-- Settles O13, by the step's equation for each of the three cases.  A reset steps to `State.reset` with the host's side
and the operand bus kept (R285), which is the statement's record once `State.reset`'s two latches are read off. -/
theorem hostActionsBetweenCommands : Obligations.HostActionsBetweenCommands := by
  refine ⟨fun s idle => ?idle, fun s p rest pending => ?seek, fun s rest pending => ?reset⟩
  case idle => exact step_idle s idle
  case seek => exact step_seek s p rest pending
  case reset => exact step_reset s rest pending

end Sys2Proof.Machine

end

/-! # Proofs of the encoding statements

Both round trips, format by format (spec/30_encoding.md R92): the word of a format decodes to the command its opcode's
row makes of the fields (`decode_wordR3` and its siblings), and a word that passes a format's mask is the one rebuilt
from its own fields (`Format.rebuild_eq_self`).  Then the illegal words and the worked encodings. -/

section

namespace Sys2Proof

open Sys2Proof.Machine Sys2Proof.Safety Sys2Proof.Statements

/-! ## The fields as numbers -/

theorem rdOf_val (c : Word32) : (rdOf c).val = c.toNat / 2 ^ 20 % 2 ^ 4 := by
  simp [rdOf, Nat.shiftRight_eq_div_pow]

theorem raOf_val (c : Word32) : (raOf c).val = c.toNat / 2 ^ 16 % 2 ^ 4 := by
  simp [raOf, Nat.shiftRight_eq_div_pow]

theorem rbOf_val (c : Word32) : (rbOf c).val = c.toNat / 2 ^ 12 % 2 ^ 4 := by
  simp [rbOf, Nat.shiftRight_eq_div_pow]

theorem imm16Of_eq (c : Word32) : imm16Of c = c.toNat % 2 ^ 16 := by
  simp [imm16Of, BitVec.extractLsb'_toNat]

theorem a8Of_eq (c : Word32) : a8Of c = c.toNat / 2 ^ 16 % 2 ^ 8 := by
  simp [a8Of, BitVec.extractLsb'_toNat, Nat.shiftRight_eq_div_pow]

theorem viewOf_eq (c : Word32) : viewOf c = c.toNat / 2 ^ 16 % 2 ^ 4 := by
  simp [viewOf, BitVec.extractLsb'_toNat, Nat.shiftRight_eq_div_pow]

theorem fldOf_eq (c : Word32) : fldOf c = c.toNat / 2 ^ 12 % 2 ^ 4 := by
  simp [fldOf, BitVec.extractLsb'_toNat, Nat.shiftRight_eq_div_pow]

theorem idxOf_eq (c : Word32) : idxOf c = c.toNat % 2 ^ 12 := by
  simp [idxOf, BitVec.extractLsb'_toNat]

/-- A 4-bit field holds its register's number whole. -/
theorem toNat_regField (r : Reg) : (regField r).toNat = r.val := by
  simp [regField]

theorem fits_iff (bits v : Nat) : fits bits v = true ↔ v < 2 ^ bits := decide_eq_true_iff

/-! ## Decoding the word of each format -/

/-- The word of a row's opcode that has the row's fields and passes its mask decodes to the row's command. -/
theorem decode_of_row {c : Word32} {op : BitVec 8} {row : Row} (hop : opOf c = op.toNat)
    (hrow : opcodeRow op.toNat c = some row) (hmask : c &&& maskOf row.format = matchOf op.toNat) :
    decode c = .ok row.command :=
  (decode_eq_ok_iff c row.command).mpr ⟨row, hop ▸ hrow, hop ▸ hmask, rfl⟩

section Formats

variable (op : BitVec 8)

theorem fields_wordR3 (rd ra rb : Reg) :
    rdOf (wordR3 op rd ra rb) = rd ∧ raOf (wordR3 op rd ra rb) = ra ∧ rbOf (wordR3 op rd ra rb) = rb := by
  simp only [Fin.ext_iff, rdOf_val, raOf_val, rbOf_val, wordR3, toNat_fields, toNat_regField]
  omega

theorem decode_wordR3 (mk : Reg → Reg → Reg → Instr)
    (hrow : ∀ c, opcodeRow op.toNat c = some ⟨.r3, mk (rdOf c) (raOf c) (rbOf c)⟩) (rd ra rb : Reg) :
    decode (wordR3 op rd ra rb) = .ok (mk rd ra rb) :=
  decode_of_row (row := ⟨.r3, mk rd ra rb⟩) (opOf_wordR3 op rd ra rb)
    (by simp only [hrow, fields_wordR3 op rd ra rb]) (wordR3_mask op rd ra rb)

theorem fields_wordR2 (rd ra : Reg) :
    rdOf (wordR2 op rd ra) = rd ∧ raOf (wordR2 op rd ra) = ra := by
  simp only [Fin.ext_iff, rdOf_val, raOf_val, wordR2, toNat_fields, toNat_regField]
  omega

theorem decode_wordR2 (mk : Reg → Reg → Instr)
    (hrow : ∀ c, opcodeRow op.toNat c = some ⟨.r2, mk (rdOf c) (raOf c)⟩) (rd ra : Reg) :
    decode (wordR2 op rd ra) = .ok (mk rd ra) :=
  decode_of_row (row := ⟨.r2, mk rd ra⟩) (opOf_wordR2 op rd ra)
    (by simp only [hrow, fields_wordR2 op rd ra]) (wordR2_mask op rd ra)

theorem fields_wordRD (rd : Reg) : rdOf (wordRD op rd) = rd := by
  simp only [Fin.ext_iff, rdOf_val, wordRD, toNat_fields, toNat_regField]
  omega

theorem decode_wordRD (mk : Reg → Instr)
    (hrow : ∀ c, opcodeRow op.toNat c = some ⟨.rd, mk (rdOf c)⟩) (rd : Reg) :
    decode (wordRD op rd) = .ok (mk rd) :=
  decode_of_row (row := ⟨.rd, mk rd⟩) (opOf_wordRD op rd)
    (by simp only [hrow, fields_wordRD op rd]) (wordRD_mask op rd)

theorem fields_wordRS (ra : Reg) : raOf (wordRS op ra) = ra := by
  simp only [Fin.ext_iff, raOf_val, wordRS, toNat_fields, toNat_regField]
  omega

theorem decode_wordRS (mk : Reg → Instr)
    (hrow : ∀ c, opcodeRow op.toNat c = some ⟨.rs, mk (raOf c)⟩) (ra : Reg) :
    decode (wordRS op ra) = .ok (mk ra) :=
  decode_of_row (row := ⟨.rs, mk ra⟩) (opOf_wordRS op ra)
    (by simp only [hrow, fields_wordRS op ra]) (wordRS_mask op ra)

theorem fields_wordRC (ra rb : Reg) :
    raOf (wordRC op ra rb) = ra ∧ rbOf (wordRC op ra rb) = rb := by
  simp only [Fin.ext_iff, raOf_val, rbOf_val, wordRC, toNat_fields, toNat_regField]
  omega

theorem decode_wordRC (mk : Reg → Reg → Instr)
    (hrow : ∀ c, opcodeRow op.toNat c = some ⟨.rc, mk (raOf c) (rbOf c)⟩) (ra rb : Reg) :
    decode (wordRC op ra rb) = .ok (mk ra rb) :=
  decode_of_row (row := ⟨.rc, mk ra rb⟩) (opOf_wordRC op ra rb)
    (by simp only [hrow, fields_wordRC op ra rb]) (wordRC_mask op ra rb)

theorem fields_wordRI (rd ra : Reg) (imm16 : Nat) (h : fits 16 imm16 = true) :
    rdOf (wordRI op rd ra imm16) = rd ∧ raOf (wordRI op rd ra imm16) = ra ∧
      imm16Of (wordRI op rd ra imm16) = imm16 := by
  rw [fits_iff] at h
  simp only [Fin.ext_iff, rdOf_val, raOf_val, imm16Of_eq, wordRI, toNat_fields, toNat_regField, BitVec.toNat_ofNat]
  omega

theorem decode_wordRI (mk : Reg → Reg → Nat → Instr)
    (hrow : ∀ c, opcodeRow op.toNat c = some ⟨.ri, mk (rdOf c) (raOf c) (imm16Of c)⟩)
    (rd ra : Reg) (imm16 : Nat) (h : fits 16 imm16 = true) :
    decode (wordRI op rd ra imm16) = .ok (mk rd ra imm16) :=
  decode_of_row (row := ⟨.ri, mk rd ra imm16⟩) (opOf_wordRI op rd ra imm16)
    (by simp only [hrow, fields_wordRI op rd ra imm16 h]) (wordRI_mask op rd ra imm16)

theorem fields_wordSR (rd : Reg) (imm16 : Nat) (h : fits 16 imm16 = true) :
    rdOf (wordSR op rd imm16) = rd ∧ imm16Of (wordSR op rd imm16) = imm16 := by
  rw [fits_iff] at h
  simp only [Fin.ext_iff, rdOf_val, imm16Of_eq, wordSR, toNat_fields, toNat_regField, BitVec.toNat_ofNat]
  omega

theorem decode_wordSR (mk : Reg → Nat → Instr)
    (hrow : ∀ c, opcodeRow op.toNat c = some ⟨.sr, mk (rdOf c) (imm16Of c)⟩)
    (rd : Reg) (imm16 : Nat) (h : fits 16 imm16 = true) :
    decode (wordSR op rd imm16) = .ok (mk rd imm16) :=
  decode_of_row (row := ⟨.sr, mk rd imm16⟩) (opOf_wordSR op rd imm16)
    (by simp only [hrow, fields_wordSR op rd imm16 h]) (wordSR_mask op rd imm16)

theorem decode_wordN (i : Instr) (hrow : ∀ c, opcodeRow op.toNat c = some ⟨.n, i⟩) :
    decode (wordN op) = .ok i :=
  decode_of_row (row := ⟨.n, i⟩) (opOf_wordN op) (hrow _) (wordN_mask op)

theorem fields_wordI (imm16 : Nat) (h : fits 16 imm16 = true) : imm16Of (wordI op imm16) = imm16 := by
  rw [fits_iff] at h
  simp only [imm16Of_eq, wordI, toNat_fields, BitVec.toNat_ofNat]
  omega

theorem decode_wordI (mk : Nat → Instr)
    (hrow : ∀ c, opcodeRow op.toNat c = some ⟨.i, mk (imm16Of c)⟩) (imm16 : Nat) (h : fits 16 imm16 = true) :
    decode (wordI op imm16) = .ok (mk imm16) :=
  decode_of_row (row := ⟨.i, mk imm16⟩) (opOf_wordI op imm16)
    (by simp only [hrow, fields_wordI op imm16 h]) (wordI_mask op imm16)

theorem fields_wordP (a8 imm16 : Nat) (h : (fits 8 a8 && fits 16 imm16) = true) :
    a8Of (wordP op a8 imm16) = a8 ∧ imm16Of (wordP op a8 imm16) = imm16 := by
  simp only [Bool.and_eq_true, fits_iff] at h
  simp only [a8Of_eq, imm16Of_eq, wordP, toNat_fields, BitVec.toNat_ofNat]
  omega

theorem decode_wordP (mk : Nat → Nat → Instr)
    (hrow : ∀ c, opcodeRow op.toNat c = some ⟨.p, mk (a8Of c) (imm16Of c)⟩)
    (a8 imm16 : Nat) (h : (fits 8 a8 && fits 16 imm16) = true) :
    decode (wordP op a8 imm16) = .ok (mk a8 imm16) :=
  decode_of_row (row := ⟨.p, mk a8 imm16⟩) (opOf_wordP op a8 imm16)
    (by simp only [hrow, fields_wordP op a8 imm16 h]) (wordP_mask op a8 imm16)

theorem fields_wordV (view fld idx : Nat) (h : (fits 4 view && fits 4 fld && fits 12 idx) = true) :
    viewOf (wordV op view fld idx) = view ∧ fldOf (wordV op view fld idx) = fld ∧
      idxOf (wordV op view fld idx) = idx := by
  simp only [Bool.and_eq_true, fits_iff] at h
  simp only [viewOf_eq, fldOf_eq, idxOf_eq, wordV, toNat_fields, BitVec.toNat_ofNat]
  omega

theorem decode_wordV (mk : Nat → Nat → Nat → Instr)
    (hrow : ∀ c, opcodeRow op.toNat c = some ⟨.v, mk (viewOf c) (fldOf c) (idxOf c)⟩)
    (view fld idx : Nat) (h : (fits 4 view && fits 4 fld && fits 12 idx) = true) :
    decode (wordV op view fld idx) = .ok (mk view fld idx) :=
  decode_of_row (row := ⟨.v, mk view fld idx⟩) (opOf_wordV op view fld idx)
    (by simp only [hrow, fields_wordV op view fld idx h]) (wordV_mask op view fld idx)

end Formats

/-- Settles O1: each command by the lemma of its format, given that its opcode's row is the command on the word's
fields. -/
theorem decodeOfEncode : Obligations.DecodeOfEncode := by
  intro i h
  cases i with
  | wld rd => exact decode_wordRD 0x10 .wld (fun _ => rfl) rd
  | wldu rd => exact decode_wordRD 0x11 .wldu (fun _ => rfl) rd
  | wrd ra => exact decode_wordRS 0x12 .wrd (fun _ => rfl) ra
  | wmov rd ra => exact decode_wordR2 0x13 .wmov (fun _ => rfl) rd ra
  | wcvt8 ra => exact decode_wordRS 0x14 .wcvt8 (fun _ => rfl) ra
  | wcvt16 ra => exact decode_wordRS 0x15 .wcvt16 (fun _ => rfl) ra
  | wcvt32 ra => exact decode_wordRS 0x16 .wcvt32 (fun _ => rfl) ra
  | wcvt64 ra => exact decode_wordRS 0x17 .wcvt64 (fun _ => rfl) ra
  | wadd rd ra rb => exact decode_wordR3 0x18 .wadd (fun _ => rfl) rd ra rb
  | wsub rd ra rb => exact decode_wordR3 0x19 .wsub (fun _ => rfl) rd ra rb
  | wmul rd ra rb => exact decode_wordR3 0x1A .wmul (fun _ => rfl) rd ra rb
  | wdiv rd ra rb => exact decode_wordR3 0x1B .wdiv (fun _ => rfl) rd ra rb
  | wmod rd ra rb => exact decode_wordR3 0x1C .wmod (fun _ => rfl) rd ra rb
  | winc rd ra => exact decode_wordR2 0x1D .winc (fun _ => rfl) rd ra
  | wdec rd ra => exact decode_wordR2 0x1E .wdec (fun _ => rfl) rd ra
  | wcmp ra rb => exact decode_wordRC 0x1F .wcmp (fun _ => rfl) ra rb
  | wand rd ra rb => exact decode_wordR3 0x20 .wand (fun _ => rfl) rd ra rb
  | wor rd ra rb => exact decode_wordR3 0x21 .wor (fun _ => rfl) rd ra rb
  | wxor rd ra rb => exact decode_wordR3 0x22 .wxor (fun _ => rfl) rd ra rb
  | wnot rd ra => exact decode_wordR2 0x23 .wnot (fun _ => rfl) rd ra
  | wshl rd ra rb => exact decode_wordR3 0x24 .wshl (fun _ => rfl) rd ra rb
  | wshr rd ra rb => exact decode_wordR3 0x25 .wshr (fun _ => rfl) rd ra rb
  | wshli rd ra imm16 => exact decode_wordRI 0x26 .wshli (fun _ => rfl) rd ra imm16 h
  | wshri rd ra imm16 => exact decode_wordRI 0x27 .wshri (fun _ => rfl) rd ra imm16 h
  | crcinit => exact decode_wordN 0x30 .crcinit (fun _ => rfl)
  | crcpb imm16 => exact decode_wordI 0x31 .crcpb (fun _ => rfl) imm16 h
  | crcpr off len => exact decode_wordP 0x32 .crcpr (fun _ => rfl) off len h
  | crcpk => exact decode_wordN 0x33 .crcpk (fun _ => rfl)
  | crcrd => exact decode_wordN 0x34 .crcrd (fun _ => rfl)
  | fnew kind => exact decode_wordI 0x40 .fnew (fun _ => rfl) kind h
  | fchk kind => exact decode_wordI 0x41 .fchk (fun _ => rfl) kind h
  | fget view fld idx => exact decode_wordV 0x42 .fget (fun _ => rfl) view fld idx h
  | fset view fld idx => exact decode_wordV 0x43 .fset (fun _ => rfl) view fld idx h
  | fval => exact decode_wordN 0x44 .fval (fun _ => rfl)
  | fisv => exact decode_wordN 0x45 .fisv (fun _ => rfl)
  | pbw idx => exact decode_wordI 0x50 .pbw (fun _ => rfl) idx h
  | pbr idx => exact decode_wordI 0x51 .pbr (fun _ => rfl) idx h
  | lblw half => exact decode_wordI 0x52 .lblw (fun _ => rfl) half h
  | lblr half => exact decode_wordI 0x53 .lblr (fun _ => rfl) half h
  | binit => exact decode_wordN 0x60 .binit (fun _ => rfl)
  | bwhead => exact decode_wordN 0x61 .bwhead (fun _ => rfl)
  | bwheadx ra rb => exact decode_wordRC 0x62 .bwheadx (fun _ => rfl) ra rb
  | bwdata size => exact decode_wordI 0x63 .bwdata (fun _ => rfl) size h
  | bwcont => exact decode_wordN 0x64 .bwcont (fun _ => rfl)
  | bwfin => exact decode_wordN 0x65 .bwfin (fun _ => rfl)
  | linit => exact decode_wordN 0x70 .linit (fun _ => rfl)
  | lnext => exact decode_wordN 0x71 .lnext (fun _ => rfl)
  | lgdata limit => exact decode_wordI 0x72 .lgdata (fun _ => rfl) limit h
  | lchk => exact decode_wordN 0x73 .lchk (fun _ => rfl)
  | lgetf => exact decode_wordN 0x74 .lgetf (fun _ => rfl)
  | lglbl => exact decode_wordN 0x75 .lglbl (fun _ => rfl)
  | srd rd sreg => exact decode_wordSR 0x80 .srd (fun _ => rfl) rd sreg h

/-! ## A word rebuilt from its fields -/

/-- The word of format `f` that has the opcode `op` and the fields of `c`. -/
def Format.rebuild (f : Format) (op : BitVec 8) (c : Word32) : Word32 :=
  match f with
  | .r3 => wordR3 op (rdOf c) (raOf c) (rbOf c)
  | .r2 => wordR2 op (rdOf c) (raOf c)
  | .rd => wordRD op (rdOf c)
  | .rs => wordRS op (raOf c)
  | .rc => wordRC op (raOf c) (rbOf c)
  | .ri => wordRI op (rdOf c) (raOf c) (imm16Of c)
  | .sr => wordSR op (rdOf c) (imm16Of c)
  | .n => wordN op
  | .i => wordI op (imm16Of c)
  | .p => wordP op (a8Of c) (imm16Of c)
  | .v => wordV op (viewOf c) (fldOf c) (idxOf c)

/-- The encoder writes the fields its command got from the word back into the picture of the row's format (R92, R94). -/
theorem encode_command_of_row {op : Nat} {c : Word32} {row : Row} (h : opcodeRow op c = some row) :
    encode row.command = row.format.rebuild (BitVec.ofNat 8 op) c := by
  unfold opcodeRow at h
  split at h <;> cases h <;> rfl

/-- A field below the opcode that the format's mask covers is 0 in every word that passes the mask (R92). -/
theorem masked_field_eq_zero {f : Format} {c : Word32} (hpass : c &&& maskOf f = matchOf (opOf c)) (start len : Nat)
    (covered : (maskOf f).extractLsb' start len = BitVec.allOnes len) (below : start + len ≤ 24) :
    c.toNat / 2 ^ start % 2 ^ len = 0 := by
  have hmatch : (matchOf (opOf c)).extractLsb' start len = 0#len := by
    ext k hk
    have : start + k < 24 := by omega
    simp [matchOf, this]
  calc c.toNat / 2 ^ start % 2 ^ len
    _ = (c.extractLsb' start len).toNat := by rw [BitVec.extractLsb'_toNat, Nat.shiftRight_eq_div_pow]
    _ = ((c &&& maskOf f).extractLsb' start len).toNat := by rw [BitVec.extractLsb'_and, covered, BitVec.and_allOnes]
    _ = 0 := by rw [hpass, hmatch]; rfl

/-- A word that passes its format's mask is rebuilt from its fields: the bits no field carries are the masked zeros
(R92). -/
theorem Format.rebuild_eq_self {f : Format} {c : Word32} (hpass : c &&& maskOf f = matchOf (opOf c)) :
    f.rebuild (BitVec.ofNat 8 (opOf c)) c = c := by
  apply BitVec.eq_of_toNat_eq
  cases f <;>
    simp only [Format.rebuild, wordR3, wordR2, wordRD, wordRS, wordRC, wordRI, wordSR, wordN, wordI, wordP, wordV,
      toNat_fields, toNat_regField, BitVec.toNat_ofNat, opOf_eq, rdOf_val, raOf_val, rbOf_val, imm16Of_eq, a8Of_eq,
      viewOf_eq, fldOf_eq, idxOf_eq]
  case r3 =>
    have low_zero := masked_field_eq_zero hpass 0 12 rfl (by decide)
    omega
  case r2 =>
    have low_zero := masked_field_eq_zero hpass 0 16 rfl (by decide)
    omega
  case rd =>
    have low_zero := masked_field_eq_zero hpass 0 20 rfl (by decide)
    omega
  case rs =>
    have high_zero := masked_field_eq_zero hpass 20 4 rfl (by decide)
    have low_zero := masked_field_eq_zero hpass 0 16 rfl (by decide)
    omega
  case rc =>
    have high_zero := masked_field_eq_zero hpass 20 4 rfl (by decide)
    have low_zero := masked_field_eq_zero hpass 0 12 rfl (by decide)
    omega
  case ri => omega
  case sr =>
    have mid_zero := masked_field_eq_zero hpass 16 4 rfl (by decide)
    omega
  case n =>
    have low_zero := masked_field_eq_zero hpass 0 24 rfl (by decide)
    omega
  case i =>
    have mid_zero := masked_field_eq_zero hpass 16 8 rfl (by decide)
    omega
  case p => omega
  case v =>
    have high_zero := masked_field_eq_zero hpass 20 4 rfl (by decide)
    omega

/-- Settles O2: the decoded command is the row's, and its word is `c` rebuilt from its fields, since `c` passed the
mask. -/
theorem encodeOfDecode : Obligations.EncodeOfDecode := by
  intro c i h
  refine ⟨decode_wellFormed h, ?_⟩
  obtain ⟨row, hrow, hpass, rfl⟩ := (decode_eq_ok_iff c i).mp h
  calc encode row.command
    _ = row.format.rebuild (BitVec.ofNat 8 (opOf c)) c := encode_command_of_row hrow
    _ = c := Format.rebuild_eq_self hpass

/-! ## Illegal words -/

/-- The opcode map has no row exactly for the opcodes R94 leaves unassigned. -/
theorem opcodeRow_eq_none_iff (op : Nat) (c : Word32) : opcodeRow op c = none ↔ ¬ assigned op := by
  unfold opcodeRow
  split
  case h_53 =>
    -- The map's last arm: `op` is none of the 52 opcodes above it.
    simp only [assigned, true_iff]
    grind
  all_goals simp [assigned]

/-- A word is refused for its opcode exactly when the opcode is unassigned (R108). -/
theorem decode_unassigned_iff (c : Word32) : decode c = .error .unassignedOpcode ↔ ¬ assigned (opOf c) := by
  rw [← opcodeRow_eq_none_iff (opOf c) c]
  unfold decode
  cases opcodeRow (opOf c) c with
  | none => simp
  | some row => by_cases hpass : c &&& maskOf row.format = matchOf (opOf c) <;> simp [hpass]

/-- A word is refused for a must-be-zero bit exactly when its opcode is assigned and it is no well-formed command's
word (R108). -/
theorem decode_mustBeZero_iff (c : Word32) : decode c = .error .mustBeZeroBit ↔
    assigned (opOf c) ∧ ∀ i : Instr, i.wellFormed = true → encode i ≠ c := by
  constructor
  · intro hdec
    refine ⟨not_not.mp fun unassigned => ?_, fun i hwf hword => ?_⟩
    · rw [(decode_unassigned_iff c).mpr unassigned] at hdec
      cases hdec
    · rw [← hword, decodeOfEncode i hwf] at hdec
      cases hdec
  · rintro ⟨hop, hword⟩
    cases hdec : decode c with
    | ok i =>
      obtain ⟨hwf, hi⟩ := encodeOfDecode c i hdec
      exact absurd hi (hword i hwf)
    | error e =>
      cases e with
      | unassignedOpcode => exact absurd hop ((decode_unassigned_iff c).mp hdec)
      | mustBeZeroBit => rfl

/-- With the latch clear, the step on an illegal word sets `ILL` and answers ILLEGAL_COMMAND (R108, R262). -/
theorem step_illegalWord_live {s : State} {c : Word32} {v : Wide} {rest : List HostAction} {e : Illegal}
    (live : s.faulted = false) (pending : s.host.actions = .command c v :: rest) (hdec : decode c = .error e) :
    step s = .next
      (answered { s with ill := true, wdata := v, host := { s.host with actions := rest } } .illegalCommand 0) := by
  rw [step_command s c v rest pending, runWord_illegal _ c e hdec]
  exact command_live _ (raise .illegalCommand) live

/-- Settles O4, clause by clause: the two causes, the two words, the step. -/
theorem illegalWordsOnlyMarkIll : Obligations.IllegalWordsOnlyMarkIll :=
  ⟨decode_unassigned_iff, decode_mustBeZero_iff, ⟨.unassignedOpcode, by decide⟩, ⟨.unassignedOpcode, by decide⟩,
    fun _ _ _ _ _ => step_illegalWord_live⟩

/-! ## The worked encodings -/

/-- Settles O3: the decoder evaluated on each word of R114; the size 241 is out of BWDATA's range. -/
theorem workedEncodingsDecode : Obligations.WorkedEncodingsDecode := by
  refine ⟨?_, ?_, ?_, ?_, ?_, ?_, ?_, ?_, ?_, ?_, ?_, ?_, ?_, fun s live => checked_illegal s _ live⟩ <;> decide

end Sys2Proof

end

/-! # Proofs of the wide arithmetic statements

A wide command has one of three shapes: it writes a register, answers a value, or divides.  Once the latch is clear,
what is left of its statement is about the operation it computes with: each limb-wise, schoolbook or scanning form of
spec/40_wide_arithmetic.md equals that operation. -/

section

namespace Sys2Proof.Machine

open Sys2Proof.Safety Sys2Proof.Statements

/-! ## The three shapes of a wide command -/

section Shapes

variable {s : State}

/-- With the latch clear, a register-writing command leaves its value in the destination and answers 0. -/
theorem writeReg_live {rd : Reg} {v : State → Wide} {x : Wide} (live : s.faulted = false) (value : v s = x) :
    writeReg rd v s = .next (answered (withReg s rd x) .ok 0) :=
  value ▸ command_live s _ live

/-- With the latch clear, an answering command writes nothing. -/
theorem answerValue_live {v : State → Wide} {x : Wide} (live : s.faulted = false) (value : v s = x) :
    answerValue v s = .next (answered s .ok x) :=
  value ▸ command_live s _ live

/-- A division by a nonzero register writes its result (R135, R136). -/
theorem divideReg_nonzero {f : Wide → Wide → Wide} {rd ra rb : Reg} {x : Wide} (live : s.faulted = false)
    (nonzero : s.reg rb ≠ 0) (value : f (s.reg ra) (s.reg rb) = x) :
    divideReg f rd ra rb s = .next (answered (withReg s rd x) .ok 0) := by
  rw [divideReg, command_live s _ live, if_neg nonzero, value]
  rfl

/-- A division by a zero register sets the latch and writes no register (R265). -/
theorem divideReg_zero {f : Wide → Wide → Wide} {rd ra rb : Reg} (live : s.faulted = false) (zero : s.reg rb = 0) :
    divideReg f rd ra rb s = .next (answered { s with faulted := true } .divByZero 0) := by
  rw [divideReg, command_live s _ live, if_pos zero, raise_divByZero]

end Shapes

/-! ## Numbers and limbs -/

/-- A number written to a wide value counts modulo `2^128` (R120). -/
theorem ofNat_mod_wide (x : Nat) : BitVec.ofNat 128 (x % 2 ^ 128) = BitVec.ofNat 128 x := by
  apply BitVec.eq_of_toNat_eq
  simp

@[simp] theorem limb0_toNat (a : Wide) : (limb0 a).toNat = a.toNat % 2 ^ 64 := by
  simp [limb0]

@[simp] theorem limb1_toNat (a : Wide) : (limb1 a).toNat = a.toNat / 2 ^ 64 := by
  have := a.isLt
  rw [limb1, BitVec.extractLsb'_toNat, Nat.shiftRight_eq_div_pow]
  omega

@[simp] theorem limb0_getLsbD (a : Wide) (k : Nat) : (limb0 a).getLsbD k = (decide (k < 64) && a.getLsbD k) := by
  simp [limb0]

@[simp] theorem limb1_getLsbD (a : Wide) (k : Nat) : (limb1 a).getLsbD k = a.getLsbD (64 + k) := by
  rw [limb1, BitVec.getLsbD_extractLsb', Bool.and_eq_right_iff_imp]
  intro hbit
  have := BitVec.lt_of_getLsbD hbit
  exact decide_eq_true (by omega)

@[simp] theorem limb0_getElem (a : Wide) (k : Nat) (hk : k < 64) : (limb0 a)[k] = a.getLsbD k := by
  simp [limb0]

@[simp] theorem limb1_getElem (a : Wide) (k : Nat) (hk : k < 64) : (limb1 a)[k] = a.getLsbD (64 + k) := by
  simp [limb1]

/-- A wide value is its two limbs side by side (R120). -/
theorem limb1_append_limb0 (a : Wide) : limb1 a ++ limb0 a = a := BitVec.extractLsb'_append_extractLsb'

/-- Two wide values with the same limbs are the same (R120). -/
theorem eq_iff_limbs (a b : Wide) : a = b ↔ limb1 a = limb1 b ∧ limb0 a = limb0 b := by
  refine ⟨fun h => h ▸ ⟨rfl, rfl⟩, fun ⟨high, low⟩ => ?_⟩
  rw [← limb1_append_limb0 a, high, low, limb1_append_limb0]

/-! ## Sum, difference and comparison by limbs -/

/-- The carry out of limb 0 is the sum's carry across bit 64; the carry out of limb 1 is lost modulo `2^128` (R132). -/
theorem wideAdd_eq_limbAdd (a b : Wide) : wideAdd a b = limbAdd a b := by
  have ha := a.isLt
  have hb := b.isLt
  apply BitVec.eq_of_toNat_eq
  simp only [wideAdd, limbAdd, toNat_fields, BitVec.toNat_add, BitVec.toNat_ofNat, limb0_toNat, limb1_toNat]
  omega

/-- The borrow out of limb 0 is the difference's borrow across bit 64 (R133). -/
theorem wideSub_eq_limbSub (a b : Wide) : wideSub a b = limbSub a b := by
  have ha := a.isLt
  have hb := b.isLt
  have one : (1 : BitVec 64).toNat = 1 := rfl
  have zero : (0 : BitVec 64).toNat = 0 := rfl
  apply BitVec.eq_of_toNat_eq
  simp only [wideSub, limbSub, toNat_fields, BitVec.toNat_sub, BitVec.toNat_ofNat, limb0_toNat, limb1_toNat]
  split
  case isTrue borrows =>
    have low : (2 ^ 64 - b.toNat % 2 ^ 64 + a.toNat % 2 ^ 64) % 2 ^ 64 =
        2 ^ 64 + a.toNat % 2 ^ 64 - b.toNat % 2 ^ 64 := by omega
    rw [low, one]
    by_cases high : b.toNat / 2 ^ 64 < a.toNat / 2 ^ 64 <;> omega
  case isFalse keeps =>
    have low : (2 ^ 64 - b.toNat % 2 ^ 64 + a.toNat % 2 ^ 64) % 2 ^ 64 =
        a.toNat % 2 ^ 64 - b.toNat % 2 ^ 64 := by omega
    rw [low, zero]
    by_cases high : b.toNat / 2 ^ 64 ≤ a.toNat / 2 ^ 64 <;> omega

/-- The three cases of the comparison code are the three cases of the order (R139). -/
theorem wideCmp_cases (a b : Wide) :
    wideCmp a b = 0 ∧ a = b ∨ wideCmp a b = 1 ∧ a.toNat < b.toNat ∨ wideCmp a b = 2 ∧ b.toNat < a.toNat := by
  rw [wideCmp]
  split_ifs with same less
  · exact .inl ⟨rfl, same⟩
  · exact .inr (.inl ⟨rfl, less⟩)
  · rw [BitVec.toNat_eq] at same
    exact .inr (.inr ⟨rfl, by omega⟩)

/-- Each comparison code is one case of the order (R139). -/
theorem wideCmp_iff (a b : Wide) :
    (wideCmp a b = 0 ↔ a = b) ∧ (wideCmp a b = 1 ↔ a.toNat < b.toNat) ∧
      (wideCmp a b = 2 ↔ b.toNat < a.toNat) := by
  obtain ⟨code, same⟩ | ⟨code, less⟩ | ⟨code, greater⟩ := wideCmp_cases a b <;> rw [code]
  · have hnat : a.toNat = b.toNat := congrArg BitVec.toNat same
    exact ⟨iff_of_true rfl same, iff_of_false (by decide) hnat.not_lt, iff_of_false (by decide) hnat.not_gt⟩
  · exact ⟨iff_of_false (by decide) fun h => less.ne (congrArg BitVec.toNat h), iff_of_true rfl less,
      iff_of_false (by decide) less.not_gt⟩
  · exact ⟨iff_of_false (by decide) fun h => greater.ne' (congrArg BitVec.toNat h),
      iff_of_false (by decide) greater.not_gt, iff_of_true rfl greater⟩

/-- Limb 1 decides the order where it differs (R139). -/
theorem toNat_lt_of_limb1_ne {a b : Wide} (differ : limb1 a ≠ limb1 b) :
    a.toNat < b.toNat ↔ (limb1 a).toNat < (limb1 b).toNat := by
  rw [ne_eq, BitVec.toNat_eq] at differ
  simp only [limb1_toNat] at differ ⊢
  omega

/-- Limb 0 decides the order where limb 1 is the same (R139). -/
theorem toNat_lt_of_limb1_eq {a b : Wide} (same : limb1 a = limb1 b) :
    a.toNat < b.toNat ↔ (limb0 a).toNat < (limb0 b).toNat := by
  rw [BitVec.toNat_eq] at same
  simp only [limb0_toNat, limb1_toNat] at same ⊢
  omega

/-- The comparison from the most significant limb is the comparison of the numbers (R139). -/
theorem wideCmp_eq_limbCmp (a b : Wide) : wideCmp a b = limbCmp a b := by
  rw [wideCmp, limbCmp]
  by_cases same : limb1 a = limb1 b
  · simp only [same, eq_iff_limbs a b, true_and, if_true, toNat_lt_of_limb1_eq same]
  · simp only [same, eq_iff_limbs a b, false_and, if_false, toNat_lt_of_limb1_ne same]

/-! ## The product by shift-add -/

/-- The sum of the partial products of the multiplier's bits below `n` (R134). -/
def partialProducts (a b : Wide) (n : Nat) : Wide :=
  (List.range n).foldl (fun acc i => if b.getLsbD i then acc + (a <<< i) else acc) 0

theorem partialProducts_succ (a b : Wide) (n : Nat) :
    partialProducts a b (n + 1) = partialProducts a b n + if b.getLsbD n then a <<< n else 0 := by
  simp only [partialProducts, List.range_succ, List.foldl_append, List.foldl_cons, List.foldl_nil]
  split <;> simp

theorem partialProducts_eq_mulRec (a b : Wide) (n : Nat) : partialProducts a b (n + 1) = BitVec.mulRec a b n := by
  induction n with
  | zero => simp [BitVec.mulRec_zero_eq, partialProducts]
  | succ n ih => rw [partialProducts_succ, ih, BitVec.mulRec_succ_eq]

/-- The truncated partial products sum to the truncated product: the multiplier has no bit 128 (R134). -/
theorem wideMul_eq_schoolbook (a b : Wide) : wideMul a b = schoolbook a b := by
  calc wideMul a b
    _ = BitVec.mulRec a b 128 := by rw [wideMul_eq, BitVec.mul_eq_mulRec]
    _ = partialProducts a b 128 + if b.getLsbD 128 then a <<< 128 else 0 := by
      rw [← partialProducts_eq_mulRec, partialProducts_succ]
    _ = schoolbook a b := by simp [partialProducts, schoolbook]

/-! ## The restoring scan -/

/-- Over positions that reach the top of the dividend the scan adds the quotient and leaves the remainder (R148). -/
theorem scan_eq_div_mod (d n q r : Nat) (bound : r < d * 2 ^ n) : scan d n (q, r) = (q + r / d, r % d) := by
  induction n generalizing q r with
  | zero =>
    have hr : r < d := by simpa using bound
    simp [scan, Nat.div_eq_of_lt hr, Nat.mod_eq_of_lt hr]
  | succ i ih =>
    have hpow : d * 2 ^ (i + 1) = d * 2 ^ i + d * 2 ^ i := by ring
    rw [scan]
    split
    case isTrue fits =>
      have hquot : 2 ^ i ≤ r / d := by
        rw [Nat.le_div_iff_mul_le (Nat.pos_of_mul_pos_right (by omega : 0 < d * 2 ^ i)), Nat.mul_comm]
        exact fits
      rw [ih _ _ (by omega), Nat.sub_mul_div, Nat.sub_mul_mod fits]
      congr 1
      omega
    case isFalse exceeds => exact ih q r (by omega)

/-- Over positions too low for the dividend the scan subtracts at each of them, so every digit it finds is 1: the
rejected reading of R148. -/
theorem scan_saturates (d n q r : Nat) (low : d * 2 ^ n ≤ r) :
    scan d n (q, r) = (q + (2 ^ n - 1), r - d * (2 ^ n - 1)) := by
  induction n generalizing q r with
  | zero => simp [scan]
  | succ i ih =>
    have hpow : d * 2 ^ (i + 1) = d * 2 ^ i + d * 2 ^ i := by ring
    have hpos := Nat.two_pow_pos i
    have hdiff : d * (2 ^ (i + 1) - 1) = d * 2 ^ i + d * (2 ^ i - 1) := by
      rw [← Nat.mul_add]
      congr 1
      omega
    rw [scan, if_pos (by omega), ih _ _ (by omega), hdiff]
    congr 1 <;> omega

/-! ## Shifts by limbs -/

theorem limb0_shiftLeft (a : Wide) (n : Nat) : limb0 (a <<< n) = limb0 a <<< n := by
  ext k hk
  grind [limb0_getElem]

/-- Limb 1 takes the bits that limb 0 loses (R144). -/
theorem limb1_shiftLeft_of_le (a : Wide) {n : Nat} (h : n ≤ 64) :
    limb1 (a <<< n) = (limb1 a <<< n ||| limb0 a >>> (64 - n)) := by
  ext k hk
  grind [limb0_getLsbD, limb1_getElem]

theorem limb1_shiftLeft_of_ge (a : Wide) {n : Nat} (h : 64 ≤ n) : limb1 (a <<< n) = limb0 a <<< (n - 64) := by
  ext k hk
  grind [limb0_getElem, limb1_getElem]

theorem limb1_ushiftRight (a : Wide) (n : Nat) : limb1 (a >>> n) = limb1 a >>> n := by
  ext k hk
  grind [limb1_getElem, limb1_getLsbD]

/-- Limb 0 takes the bits that limb 1 loses (R145). -/
theorem limb0_ushiftRight_of_le (a : Wide) {n : Nat} (h : n ≤ 64) :
    limb0 (a >>> n) = (limb0 a >>> n ||| limb1 a <<< (64 - n)) := by
  ext k hk
  grind [limb0_getElem, limb0_getLsbD, limb1_getElem]

theorem limb0_ushiftRight_of_ge (a : Wide) {n : Nat} (h : 64 ≤ n) : limb0 (a >>> n) = limb1 a >>> (n - 64) := by
  ext k hk
  grind [limb0_getElem, limb1_getLsbD]

/-- The limb forms of the left shift are its two limbs (R144). -/
theorem wideShl_eq_limbShl (a : Wide) (n : Nat) : wideShl a n = limbShl a n := by
  rw [wideShl_eq, limbShl]
  split_ifs with zero below equal above
  · rw [zero, BitVec.shiftLeft_zero]
  · rw [← limb1_append_limb0 (a <<< n), limb0_shiftLeft, limb1_shiftLeft_of_le a below.le]
  · rw [← limb1_append_limb0 (a <<< n), limb0_shiftLeft, limb1_shiftLeft_of_ge a equal.ge, equal, Nat.sub_self,
      BitVec.shiftLeft_zero, BitVec.shiftLeft_eq_zero le_rfl]
  · rw [← limb1_append_limb0 (a <<< n), limb0_shiftLeft, limb1_shiftLeft_of_ge a (not_lt.mp below),
      BitVec.shiftLeft_eq_zero (not_lt.mp below)]
  · exact BitVec.shiftLeft_eq_zero (not_lt.mp above)

/-- The limb forms of the right shift are its two limbs (R145). -/
theorem wideShr_eq_limbShr (a : Wide) (n : Nat) : wideShr a n = limbShr a n := by
  rw [wideShr_eq, limbShr]
  split_ifs with zero below equal above
  · rw [zero, BitVec.ushiftRight_zero]
  · rw [← limb1_append_limb0 (a >>> n), limb1_ushiftRight, limb0_ushiftRight_of_le a below.le]
  · rw [← limb1_append_limb0 (a >>> n), limb1_ushiftRight, limb0_ushiftRight_of_ge a equal.ge, equal, Nat.sub_self,
      BitVec.ushiftRight_zero, BitVec.ushiftRight_eq_zero le_rfl]
  · rw [← limb1_append_limb0 (a >>> n), limb1_ushiftRight, limb0_ushiftRight_of_ge a (not_lt.mp below),
      BitVec.ushiftRight_eq_zero (not_lt.mp below)]
  · exact BitVec.ushiftRight_eq_zero (not_lt.mp above)

/-! ## Division and narrowing -/

/-- Quotient times divisor plus remainder is the dividend (R135, R136). -/
theorem wideDiv_mul_add_wideMod (a b : Wide) : (wideDiv a b).toNat * b.toNat + (wideMod a b).toNat = a.toNat := by
  rw [wideDiv_toNat, wideMod_toNat]
  exact Nat.div_add_mod' a.toNat b.toNat

theorem wideMod_lt (a : Wide) {b : Wide} (nonzero : b ≠ 0) : (wideMod a b).toNat < b.toNat := by
  rw [wideMod_toNat]
  exact Nat.mod_lt _ (Nat.pos_of_ne_zero fun h => nonzero (BitVec.eq_of_toNat_eq h))

/-- The low bits are the remainder modulo `2 ^ n` (R128 to R131). -/
theorem lowBits_eq_ofNat_mod {n : Nat} (h : n ≤ 128) (a : Wide) :
    lowBits n a = BitVec.ofNat 128 (a.toNat % 2 ^ n) := by
  rw [← lowBits_toNat n h, BitVec.ofNat_toNat, BitVec.setWidth_eq]

/-! ## The statements -/

/-- Settles O17: two register writes; the low half of the bus is its remainder modulo `2 ^ 64`. -/
theorem loadsWriteTheOperandBus : Obligations.LoadsWriteTheOperandBus := by
  intro _ s live
  unfold exec
  exact ⟨rfl, writeReg_live live rfl, rfl, writeReg_live live (lowBits_eq_ofNat_mod (by decide) s.wdata)⟩

/-- Settles O18: an answer and a register write. -/
theorem registerReadAndMove : Obligations.RegisterReadAndMove := by
  intro _ _ s live
  unfold exec
  exact ⟨rfl, answerValue_live live rfl, rfl, writeReg_live live rfl⟩

/-- Settles O19: four answers, each the remainder `lowBits_eq_ofNat_mod` gives. -/
theorem narrowingKeepsLowOrderBits : Obligations.NarrowingKeepsLowOrderBits := by
  intro ra s live
  unfold exec
  exact ⟨rfl, answerValue_live live (lowBits_eq_ofNat_mod (by decide) (s.reg ra)),
    rfl, answerValue_live live (lowBits_eq_ofNat_mod (by decide) (s.reg ra)),
    rfl, answerValue_live live (lowBits_eq_ofNat_mod (by decide) (s.reg ra)),
    rfl, answerValue_live live (lowBits_eq_ofNat_mod (by decide) (s.reg ra))⟩

/-- Settles O20: the limb-wise sum is the sum. -/
theorem addWrapsAndCarriesAcrossLimbs : Obligations.AddWrapsAndCarriesAcrossLimbs := by
  intro _ ra rb s live
  unfold exec
  exact ⟨rfl, writeReg_live live (ofNat_mod_wide _).symm,
    writeReg_live live (wideAdd_eq_limbAdd (s.reg ra) (s.reg rb))⟩

/-- Settles O21: the limb-wise difference is the difference. -/
theorem subWrapsAndBorrowsAcrossLimbs : Obligations.SubWrapsAndBorrowsAcrossLimbs := by
  intro _ ra rb s live
  unfold exec
  exact ⟨rfl, writeReg_live live (ofNat_mod_wide _).symm,
    writeReg_live live (wideSub_eq_limbSub (s.reg ra) (s.reg rb))⟩

/-- Settles O22: the increment and the decrement are the limb-wise sum and difference with 1. -/
theorem incrementAndDecrementWrap : Obligations.IncrementAndDecrementWrap := by
  intro _ ra s live
  unfold exec
  exact ⟨rfl, writeReg_live live (ofNat_mod_wide _).symm, writeReg_live live (wideAdd_eq_limbAdd (s.reg ra) 1),
    rfl, writeReg_live live (ofNat_mod_wide _).symm, writeReg_live live (wideSub_eq_limbSub (s.reg ra) 1)⟩

/-- Settles O23: the shift-add is the product. -/
theorem multiplyIsSchoolbookShiftAdd : Obligations.MultiplyIsSchoolbookShiftAdd := by
  intro _ ra rb s live
  unfold exec
  exact ⟨rfl, writeReg_live live (ofNat_mod_wide _).symm,
    writeReg_live live (wideMul_eq_schoolbook (s.reg ra) (s.reg rb))⟩

/-- Settles O24: the quotient and the remainder are the ones of the numbers, which a wide value holds whole. -/
theorem divisionIsExact : Obligations.DivisionIsExact := by
  intro rd ra rb s live
  unfold exec
  refine ⟨rfl, rfl, fun nonzero => ⟨wideDiv (s.reg ra) (s.reg rb), wideMod (s.reg ra) (s.reg rb), ?_⟩,
    fun zero => ⟨divideReg_zero live zero, divideReg_zero live zero⟩⟩
  exact ⟨divideReg_nonzero live nonzero rfl, divideReg_nonzero live nonzero rfl, wideDiv_toNat _ _, wideMod_toNat _ _,
    wideMod_lt _ nonzero, wideDiv_mul_add_wideMod _ _⟩

/-- Settles O25: from a position `w` that the divisor fills up to bit 127, no dividend exceeds the scan's bound. -/
theorem restoringScanIsTheDivision : Obligations.RestoringScanIsTheDivision := by
  refine ⟨fun rd ra rb s w live _ fills => ?_, scan_saturates 1 127 0 (2 ^ 127) (by decide)⟩
  have nonzero : s.reg rb ≠ 0 := by
    intro zero
    rw [zero] at fills
    simp at fills
  rw [scan_eq_div_mod _ _ 0 _ (lt_of_lt_of_le (s.reg ra).isLt fills), Nat.zero_add]
  unfold exec
  exact ⟨divideReg_nonzero live nonzero rfl, divideReg_nonzero live nonzero rfl⟩

/-- Settles O27: the comparison by limbs is the comparison code, and the six relations are read off the
three cases of the order. -/
theorem compareIsTheUnsignedOrder : Obligations.CompareIsTheUnsignedOrder := by
  intro ra rb s live
  unfold exec
  refine ⟨rfl, wideCmp (s.reg ra) (s.reg rb), answerValue_live live rfl, wideCmp_eq_limbCmp _ _, ?_⟩
  obtain ⟨equal, less, greater⟩ := wideCmp_iff (s.reg ra) (s.reg rb)
  exact ⟨(wideCmp_cases _ _).imp And.left (.imp And.left And.left), equal, not_congr equal, less,
    (not_congr greater).trans not_lt, greater, (not_congr less).trans not_lt⟩

/-- Settles O28: the results are the bit-vector operations, which the library describes bit by bit. -/
theorem bitwiseCommandsActBitByBit : Obligations.BitwiseCommandsActBitByBit := by
  intro rd ra rb s live
  unfold exec
  refine ⟨rfl, rfl, rfl, rfl, s.reg ra &&& s.reg rb, s.reg ra ||| s.reg rb, s.reg ra ^^^ s.reg rb, ~~~ s.reg ra,
    writeReg_live live rfl, writeReg_live live rfl, writeReg_live live rfl, writeReg_live live rfl, fun k hk => ?_,
    BitVec.toNat_not⟩
  refine ⟨BitVec.getLsbD_and, BitVec.getLsbD_or, BitVec.getLsbD_xor, ?_⟩
  rw [BitVec.getLsbD_not, decide_eq_true hk, Bool.true_and]

/-- Settles O29: a count of 128 or more is a case of the operation, and the limb forms equal it for every count. -/
theorem leftShiftsByAnUnboundedCount : Obligations.LeftShiftsByAnUnboundedCount := by
  intro rd ra rb n s live _
  unfold exec
  simp only [ofNat_mod_wide]
  exact ⟨rfl, rfl, writeReg_live live rfl, writeReg_live live (wideShl_eq_limbShl (s.reg ra) (s.reg rb).toNat),
    writeReg_live live rfl, writeReg_live live (wideShl_eq_limbShl (s.reg ra) n)⟩

/-- Settles O30: as for the left shift. -/
theorem rightShiftsByAnUnboundedCount : Obligations.RightShiftsByAnUnboundedCount := by
  intro _ ra rb n s live _
  unfold exec
  exact ⟨rfl, rfl, writeReg_live live rfl, writeReg_live live (wideShr_eq_limbShr (s.reg ra) (s.reg rb).toNat),
    writeReg_live live rfl, writeReg_live live (wideShr_eq_limbShr (s.reg ra) n)⟩

/-- Settles O31: the division identity does not wrap, because it holds of the numbers. -/
theorem arithmeticLaws : Obligations.ArithmeticLaws := by
  refine ⟨fun a b => ?_, fun a b c => ?_, fun a => rfl, fun a b _ => ?_, fun a => ?_, rfl, rfl,
    fun rd ra rb s live => ?_⟩
  · rw [wideAdd, wideAdd, Nat.add_comm]
  · simp only [wideAdd_eq, BitVec.add_assoc]
  · apply BitVec.eq_of_toNat_eq
    rw [wideAdd_eq, wideMul_eq, BitVec.toNat_add, BitVec.toNat_mul, Nat.mod_add_mod, wideDiv_mul_add_wideMod,
      Nat.mod_eq_of_lt a.isLt]
  · exact ⟨lowBits_toNat 8 (by decide) a, lowBits_toNat 16 (by decide) a, lowBits_toNat 32 (by decide) a,
      lowBits_toNat 64 (by decide) a⟩
  · unfold exec
    exact ⟨writeReg_live live rfl, writeReg_live live rfl⟩

end Sys2Proof.Machine

end

/-! # Proofs of the CRC statements

The machine pushes bytes through the ROM as the spec prints it, the statements through the table that R161 generates.
The two tables agree, so the two pushes do, and every push command is one push of the bytes `pushedBytes` lists. -/

section

namespace Sys2Proof.Machine

open Sys2Proof.Safety Sys2Proof.Statements

/-! ## The table and the step -/

/-- The ROM, row by row, is the generated table (R161, R162). -/
theorem crcLut_eq_generated :
    crcLut = (List.range 16).map fun row => (List.range 16).map fun col => lutOf (16 * row + col) := by
  decide

/-- Settles O32: entry `n` stands in row `n / 16`, column `n % 16`. -/
theorem crcTableIsGenerated : Obligations.CrcTableIsGenerated := by
  intro n hn
  have hrow : n / 16 < 16 := by omega
  have hcol : n % 16 < 16 := Nat.mod_lt n (by decide)
  simp [crcEntry, crcLut_eq_generated, hrow, hcol, Nat.div_add_mod]

/-- The step through the ROM is the step through the generated table: both index by the low byte (R163). -/
theorem crcStep_eq_stepOf : crcStep = stepOf := by
  funext acc b
  rw [crcStep, stepOf, BitVec.toNat_setWidth, crcTableIsGenerated _ (Nat.mod_lt _ (by decide))]

theorem crcPush_eq_foldl_stepOf (acc : Word32) (bs : List Byte) : crcPush acc bs = bs.foldl stepOf acc := by
  rw [crcPush, crcStep_eq_stepOf]

/-! ## The pushed bytes -/

/-- A range inside the buffer is its bytes at ascending offsets (R65). -/
theorem readBytes_eq_bytesAt {m : Nat} (buf : Buffer m) (off len : Nat) (h : off + len ≤ m) :
    readBytes buf off len = bytesAt buf off len := by
  refine List.ext_getElem (by simp [readBytes_length buf off len h, bytesAt]) fun k hk _ => ?_
  have hlen : k < len := readBytes_length buf off len h ▸ hk
  rw [← List.getD_eq_getElem _ 0 hk, readBytes_getD buf off len k hlen]
  simp [bytesAt]

/-- The bytes of a bus are its lanes, lane 0 first (R66). -/
theorem lanes_eq_map_lane (v : Wide) : lanes v = (List.range 16).map (lane v) := by
  refine List.ext_getElem (by simp [lanes]) fun k hk _ => ?_
  have hlane : k < 16 := by simpa [lanes] using hk
  rw [← List.getD_eq_getElem _ 0 hk, lanes, bytesOfNat_getD 16 _ k hlane]
  apply BitVec.eq_of_toNat_eq
  simp [lane, Nat.shiftRight_eq_div_pow, Nat.pow_mul]

/-! ## A push -/

theorem pushCrc_eq_answered (bs : List Byte) (s : State) :
    pushCrc bs s = answered { s with crcAcc := bs.foldl stepOf s.crcAcc } .ok 0 := by
  rw [pushCrc, crcPush_eq_foldl_stepOf, respond_eq_answered]
  rfl

section Live

variable {s : State} (live : s.faulted = false)

include live

/-- CRCPB, CRCPR and CRCPK are one operation on the bytes each takes (R165, R166, R167, R169). -/
theorem exec_push {i : Instr} {bs : List Byte} (pushed : pushedBytes i s = some bs) :
    exec i s = .next (answered { s with crcAcc := bs.foldl stepOf s.crcAcc } .ok 0) := by
  rw [← pushCrc_eq_answered]
  cases i with
  | crcpb v =>
    obtain ⟨legal, rfl⟩ : v ≤ 255 ∧ [BitVec.ofNat 8 v] = bs := by simpa [pushedBytes] using pushed
    change execCrcpb v s = _
    rw [execCrcpb, byteLegal, decide_eq_true legal, checked_legal s _ live]
  | crcpr off len =>
    obtain ⟨legal, rfl⟩ : off + len ≤ 256 ∧ bytesAt s.fb off len = bs := by simpa [pushedBytes] using pushed
    change execCrcpr off len s = _
    rw [execCrcpr, rangeLegal, decide_eq_true legal, checked_legal s _ live, readBytes_eq_bytesAt s.fb off len legal]
  | crcpk =>
    obtain rfl : (List.range 16).map (lane s.wdata) = bs := Option.some.inj pushed
    change execCrcpk s = _
    rw [execCrcpk, command_live s _ live, lanes_eq_map_lane]
  | _ => cases pushed

theorem exec_crcpb_illegal {v : Nat} (out : 255 < v) :
    exec (.crcpb v) s = .next (answered { s with ill := true } .illegalOperand 0) := by
  change execCrcpb v s = _
  rw [execCrcpb, byteLegal, decide_eq_false (by omega), checked_illegal s _ live]

theorem exec_crcpr_illegal {off len : Nat} (out : 256 < off + len) :
    exec (.crcpr off len) s = .next (answered { s with ill := true } .illegalOperand 0) := by
  change execCrcpr off len s = _
  rw [execCrcpr, rangeLegal, decide_eq_false (by omega), checked_illegal s _ live]

theorem exec_crcinit : exec .crcinit s = .next (answered { s with crcAcc := 0xFFFFFFFF } .ok 0) := by
  unfold exec
  exact command_live s _ live

theorem exec_crcrd {digest : Wide} (value : (s.crcAcc ^^^ 0xFFFFFFFF).setWidth 128 = digest) :
    exec .crcrd s = .next (answered s .ok digest) := by
  unfold exec
  exact value ▸ command_live s _ live

end Live

/-! ## The statements -/

/-- Settles O34: the pushes are `exec_push` on the bytes in range, and the range check refuses the rest. -/
theorem crcPushesStepByStep : Obligations.CrcPushesStepByStep :=
  fun v off len _ live _ _ _ =>
    ⟨rfl, fun legal => exec_push (i := .crcpb v) live (if_pos legal), exec_crcpb_illegal live,
      rfl, fun legal => exec_push (i := .crcpr off len) live (if_pos legal), exec_crcpr_illegal live,
      rfl, exec_push live rfl⟩

/-- Settles O35: the output XOR cancels, so the accumulator is the fold over the bytes before, and the push folds on. -/
theorem pushedBytesConcatenate : Obligations.PushedBytesConcatenate := by
  refine ⟨fun i s t before bs live pushed digest run => ?_, rfl, fun s t live run => ?_⟩
  · have hacc : s.crcAcc = before.foldl stepOf 0xFFFFFFFF := (BitVec.xor_left_inj _).mp digest
    cases (exec_push live pushed).symm.trans run
    rw [digestOf, List.foldl_append, ← hacc]
    rfl
  · cases (exec_crcinit live).symm.trans run
    rfl

/-- Settles O33: after CRCINIT the accumulator is the output XOR's own constant, so the digest read is 0. -/
theorem crcInitAndDigestRead : Obligations.CrcInitAndDigestRead := by
  refine fun s live => ⟨rfl, exec_crcinit live, rfl, exec_crcrd live (BitVec.ofNat_toNat _ _).symm, fun t run => ?_⟩
  cases (exec_crcinit live).symm.trans run
  have zero : ((0xFFFFFFFF : Word32) ^^^ 0xFFFFFFFF).setWidth 128 = (0 : Wide) := by decide
  exact exec_crcrd (s := answered { s with crcAcc := 0xFFFFFFFF } .ok 0) live zero

end Sys2Proof.Machine

end

/-! # Proofs of the frame-buffer statements

The statements speak of sums over bytes, of the table of R177 and of the generated digest; the machine of integers read
from a buffer, of `fieldOf` and of the ROM.  Each pair is tied once.  A byte step of the CRC is eight injective bit
steps on the accumulator with the byte XORed in, so a change of any one byte changes the digest (R186). -/

section

namespace Sys2Proof.Machine

open Sys2Proof.Safety Sys2Proof.Statements

/-! ## Integers in a buffer -/

theorem sumAt_eq_memRead {m : Nat} (buf : Buffer m) {off n : Nat} (h : off + n ≤ m) :
    sumAt buf off n = memRead buf off n :=
  (memRead_eq_sum buf off n h).symm

/-- A 32-bit field holds a word exactly when its bytes sum to the word (R60, R63). -/
theorem ofNat_memRead_eq_iff (f : Frame) {off : Nat} (h : off + 4 ≤ 256) (v : Word32) :
    BitVec.ofNat 32 (memRead f off 4) = v ↔ sumAt f off 4 = v.toNat := by
  have bound : memRead f off 4 < 2 ^ 32 := memRead_lt f off 4 h
  rw [sumAt_eq_memRead f h, ← BitVec.toNat_inj, BitVec.toNat_ofNat, Nat.mod_eq_of_lt bound]

/-- Equal integers in a range have equal bytes there. -/
theorem byteAt_eq_of_sumAt_eq {m : Nat} {a b : Buffer m} {off n k : Nat} (h : off + n ≤ m)
    (sums : sumAt a off n = sumAt b off n) (hk : k < n) : byteAt a (off + k) = byteAt b (off + k) := by
  have split (f : Buffer m) : bytesOfNat n (memRead f off n) = readBytes f off n := by
    simpa only [memRead, readBytes_length f off n h] using bytesOfNat_natOfBytes (readBytes f off n)
  rw [← readBytes_getD a off n k hk, ← readBytes_getD b off n k hk, ← split a, ← split b,
    ← sumAt_eq_memRead a h, ← sumAt_eq_memRead b h, sums]

theorem sumAt_congr {m : Nat} {a b : Buffer m} {off n : Nat}
    (same : ∀ k, k < n → byteAt a (off + k) = byteAt b (off + k)) : sumAt a off n = sumAt b off n :=
  Finset.sum_congr rfl fun k hk => by rw [same k (Finset.mem_range.mp hk)]

theorem bytesAt_congr {m : Nat} {a b : Buffer m} {off n : Nat}
    (same : ∀ k, k < n → byteAt a (off + k) = byteAt b (off + k)) : bytesAt a off n = bytesAt b off n :=
  List.map_congr_left fun k hk => same k (List.mem_range.mp hk)

/-- A range of bytes around one of them. -/
theorem bytesAt_split {m : Nat} (buf : Buffer m) (off before after : Nat) :
    bytesAt buf off (before + 1 + after) =
      bytesAt buf off before ++ byteAt buf (off + before) :: bytesAt buf (off + before + 1) after := by
  simp [bytesAt, List.range_add, Function.comp_def, Nat.add_assoc]

/-- Lane `k` of the bus is the `k`-th base-256 digit of its value (R64, R66). -/
theorem ofNat_digit_eq_lane (v : Wide) (k : Nat) : BitVec.ofNat 8 (v.toNat / 256 ^ k) = lane v k := by
  apply BitVec.eq_of_toNat_eq
  simp [lane, Nat.shiftRight_eq_div_pow, Nat.pow_mul]

/-! ## The checksum -/

theorem computedChecksum_eq_digestOf (f : Frame) : computedChecksum f = digestOf (bytesAt f 0 252) := by
  rw [computedChecksum, cfg_cksumOff, readBytes_eq_bytesAt f 0 252 (by decide), crc32, crcPush_eq_foldl_stepOf]
  rfl

/-- `is_valid` is the spec's notion of a valid frame (R72, R185). -/
theorem frameValid_iff (f : Frame) : frameValid f = true ↔ CorrectlySealed f := by
  rw [frameValid, beq_iff_eq, eq_comm, CorrectlySealed, ← computedChecksum_eq_digestOf]
  exact ofNat_memRead_eq_iff f (by decide) (computedChecksum f)

theorem correctlySealed_sealFrame (f : Frame) : CorrectlySealed (sealFrame f) :=
  (frameValid_iff _).mp (frameValid_sealFrame f)

/-! ## One changed byte changes the digest -/

/-- The polynomial's top bit records whether a 1 was shifted out (R161). -/
theorem crcBitStep_topBit (c : Word32) : (crcBitStep c).getLsbD 31 = c.getLsbD 0 := by
  rw [crcBitStep]
  split <;> simp_all

theorem crcBitStep_injective : Function.Injective crcBitStep := by
  intro c d steps
  have low : c.getLsbD 0 = d.getLsbD 0 := by rw [← crcBitStep_topBit, steps, crcBitStep_topBit]
  have high : c >>> 1 = d >>> 1 := by
    rw [crcBitStep, crcBitStep, low] at steps
    split at steps
    · exact (BitVec.xor_left_inj _).mp steps
    · exact steps
  apply BitVec.eq_of_getLsbD_eq
  intro i _
  cases i with
  | zero => exact low
  | succ i => simpa [Nat.add_comm] using congrArg (BitVec.getLsbD · i) high

/-- Bits that are not yet shifted out pass through `k` bit steps unchanged. -/
theorem crcBitStep_iterate_xor (k : Nat) (x y : Word32) (clear : ∀ i, i < k → y.getLsbD i = false) :
    crcBitStep^[k] (x ^^^ y) = crcBitStep^[k] x ^^^ (y >>> k) := by
  induction k generalizing x y with
  | zero => simp
  | succ k ih =>
    have once : crcBitStep (x ^^^ y) = crcBitStep x ^^^ (y >>> 1) := by
      have even : y.getLsbD 0 = false := clear 0 (by omega)
      simp only [crcBitStep, BitVec.getLsbD_xor, even, Bool.xor_false, BitVec.ushiftRight_xor_distrib]
      split
      · ac_rfl
      · rfl
    have rest : ∀ i, i < k → (y >>> 1).getLsbD i = false := fun i hi => by
      simpa [Nat.add_comm] using clear (i + 1) (by omega)
    rw [Function.iterate_succ_apply, Function.iterate_succ_apply, once, ih _ _ rest, ← BitVec.shiftRight_add,
      Nat.add_comm 1 k]

/-- The table's step is eight bit steps on the accumulator with the byte XORed into its low bits (R161, R163). -/
theorem stepOf_eq_iterate (acc : Word32) (b : Byte) : stepOf acc b = crcBitStep^[8] (acc ^^^ b.setWidth 32) := by
  have parts : acc ^^^ b.setWidth 32 = ((acc ^^^ b.setWidth 32).setWidth 8).setWidth 32 ^^^ (acc >>> 8) <<< 8 := by
    apply BitVec.eq_of_getLsbD_eq
    intro i hi
    by_cases low : i < 8
    · simp [hi, low]
    · simp [hi, low, Nat.add_sub_cancel' (Nat.le_of_not_lt low), Bool.xor_comm]
  have unshift : (acc >>> 8) <<< 8 >>> 8 = acc >>> 8 := by
    apply BitVec.eq_of_getLsbD_eq
    intro i hi
    simpa using acc.lt_of_getLsbD (i := 8 + i)
  rw [parts, crcBitStep_iterate_xor 8 _ _ fun i hi => by simp [hi], unshift, stepOf, lutOf, BitVec.ofNat_toNat]
  rfl

theorem stepOf_left_injective (b : Byte) : Function.Injective (stepOf · b) := by
  intro c d steps
  simp only [stepOf_eq_iterate] at steps
  exact (BitVec.xor_left_inj _).mp (crcBitStep_injective.iterate 8 steps)

theorem stepOf_right_injective (acc : Word32) : Function.Injective (stepOf acc) := by
  intro b c steps
  rw [stepOf_eq_iterate, stepOf_eq_iterate] at steps
  have widened : b.setWidth 32 = c.setWidth 32 :=
    (BitVec.xor_right_inj _).mp (crcBitStep_injective.iterate 8 steps)
  simpa using congrArg (BitVec.setWidth 8) widened

theorem foldl_stepOf_injective (bs : List Byte) : Function.Injective fun acc => bs.foldl stepOf acc := by
  induction bs with
  | nil => exact Function.injective_id
  | cons b bs ih => exact ih.comp (stepOf_left_injective b)

/-- The digest tells two strings apart that differ in one byte (R186). -/
theorem digestOf_changed_byte (before after : List Byte) {b c : Byte} (changed : b ≠ c) :
    digestOf (before ++ b :: after) ≠ digestOf (before ++ c :: after) := by
  intro digests
  have folds := (BitVec.xor_left_inj _).mp digests
  rw [List.foldl_append, List.foldl_append, List.foldl_cons, List.foldl_cons] at folds
  exact changed (stepOf_right_injective _ (foldl_stepOf_injective after folds))

/-- A frame that differs from a valid one in exactly one byte is not valid: a byte below 252 changes the digest under
the stored checksum, a byte of the checksum field changes the stored checksum under the digest (R186). -/
theorem not_correctlySealed_of_changed_byte {f g : Frame} {a : Nat} (ha : a < 256) (sealed : CorrectlySealed g)
    (changed : byteAt f a ≠ byteAt g a) (same : ∀ k, k < 256 → k ≠ a → byteAt f k = byteAt g k) :
    ¬ CorrectlySealed f := by
  intro sealedToo
  rw [CorrectlySealed] at sealed sealedToo
  by_cases covered : a < 252
  · have stored : sumAt f 252 4 = sumAt g 252 4 := sumAt_congr fun k hk => same _ (by omega) (by omega)
    have digests : digestOf (bytesAt f 0 252) = digestOf (bytesAt g 0 252) :=
      BitVec.eq_of_toNat_eq (sealedToo.symm.trans (stored.trans sealed))
    have before : bytesAt f 0 a = bytesAt g 0 a := bytesAt_congr fun k hk => same _ (by omega) (by omega)
    have after : bytesAt f (0 + a + 1) (251 - a) = bytesAt g (0 + a + 1) (251 - a) :=
      bytesAt_congr fun k hk => same _ (by omega) (by omega)
    rw [show 252 = a + 1 + (251 - a) by omega, bytesAt_split, bytesAt_split, before, after, Nat.zero_add] at digests
    exact digestOf_changed_byte _ _ changed digests
  · have payload : bytesAt f 0 252 = bytesAt g 0 252 := bytesAt_congr fun k hk => same _ (by omega) (by omega)
    have stored : sumAt f 252 4 = sumAt g 252 4 := by rw [sealedToo, sealed, payload]
    have bytes := byteAt_eq_of_sumAt_eq (by decide) stored (show a - 252 < 4 by omega)
    rw [Nat.add_sub_cancel' (by omega)] at bytes
    exact changed bytes

/-! ## Kinds and tags -/

theorem viewOk_iff (k : Kind) (f : Frame) : viewOk k f = true ↔ sumAt f 8 4 = (tagOf k).toNat := by
  rw [viewOk, beq_iff_eq]
  exact ofNat_memRead_eq_iff f (by decide) (tagOf k)

theorem tagOf_kindOf {n : Nat} {k : Kind} (h : kindOf n = some k) : tagOf k = tagOfKind n := by
  unfold kindOf at h
  split at h <;> cases h <;> rfl

theorem kindOf_legal {n : Nat} (legal : 1 ≤ n ∧ n ≤ 4) : ∃ k, kindOf n = some k ∧ tagOf k = tagOfKind n := by
  obtain ⟨k, hk⟩ := Option.isSome_iff_exists.mp ((kindOf_isSome n).mpr legal)
  exact ⟨k, hk, tagOf_kindOf hk⟩

theorem kindOf_illegal {n : Nat} (illegal : n = 0 ∨ 4 < n) : kindOf n = none := by
  rw [← Option.not_isSome_iff_eq_none, kindOf_isSome]
  omega

/-- The frame FNEW leaves: the tag, and zeros (R178). -/
def defaultFrame (k : Kind) : Frame := memWrite blankFrame 8 4 (tagOf k).toNat

theorem sumAt_defaultFrame (k : Kind) : sumAt (defaultFrame k) 8 4 = (tagOf k).toNat := by
  rw [sumAt_eq_memRead _ (by decide), defaultFrame, memRead_memWrite _ _ _ _ (by decide)]
  exact Nat.mod_eq_of_lt (tagOf k).isLt

theorem byteAt_defaultFrame (k : Kind) {a : Nat} (ha : a < 256) (outside : a < 8 ∨ 12 ≤ a) :
    byteAt (defaultFrame k) a = 0 := by
  rw [defaultFrame, byteAt_memWrite _ _ _ _ _ ha, if_neg (by omega), blankFrame, byteAt_zeroBuffer]

/-- The four digests of a default frame, computed, are none of them the stored 0 (R178). -/
theorem not_correctlySealed_defaultFrame (k : Kind) : ¬ CorrectlySealed (defaultFrame k) := by
  rw [← frameValid_iff]
  cases k <;> decide +kernel

/-! ## The table of fields -/

theorem listed_of_single {v : Option Kind} {view fld idx off n : Nat} {fd : Field}
    (row : (view, fld, 1, off, n) ∈ fieldTable) (h : single v off n idx = some fd) :
    Listed view fld idx fd.off fd.bytes := by
  obtain ⟨rfl, found⟩ := Option.ite_none_right_eq_some.mp h
  cases found
  exact ⟨1, off, row, Nat.one_pos, rfl⟩

theorem listed_of_chunked {v : Option Kind} {view fld idx base count : Nat} {fd : Field}
    (row : (view, fld, count, base, 16) ∈ fieldTable) (h : chunked v base count idx = some fd) :
    Listed view fld idx fd.off fd.bytes := by
  obtain ⟨inside, found⟩ := Option.ite_none_right_eq_some.mp h
  cases found
  exact ⟨count, base, row, inside, rfl⟩

/-- Every field the machine knows is a row of the table (R177). -/
theorem listed_of_fieldOf {view fld idx : Nat} {fd : Field} (h : fieldOf view fld idx = some fd) :
    Listed view fld idx fd.off fd.bytes := by
  unfold fieldOf at h
  split at h
  case h_3 | h_7 | h_10 | h_12 | h_14 => exact listed_of_chunked (by decide) h
  case h_15 => cases h
  all_goals exact listed_of_single (by decide) h

/-- Every chunk of every row, one by one (R177). -/
theorem fieldOf_row : ∀ row ∈ fieldTable, ∀ idx < row.2.2.1,
    fieldOf row.1 row.2.1 idx = some ⟨kindOf row.1, row.2.2.2.1 + 16 * idx, row.2.2.2.2⟩ := by
  decide

/-- Every row of the table is a field of the machine, with the view's kind (R176, R177). -/
theorem fieldOf_of_listed {view fld idx off n : Nat} (h : Listed view fld idx off n) :
    fieldOf view fld idx = some ⟨kindOf view, off, n⟩ := by
  obtain ⟨_, _, row, inside, rfl⟩ := h
  exact fieldOf_row _ row idx inside

theorem fieldOf_of_unlisted {view fld idx : Nat} (h : ¬ ∃ off n, Listed view fld idx off n) :
    fieldOf view fld idx = none :=
  Option.eq_none_iff_forall_not_mem.mpr fun _ found => h ⟨_, _, listed_of_fieldOf found⟩

/-- A listed view is RAW or a kind, and a typed view's fields lie behind the tag (R177). -/
theorem table_views : ∀ row ∈ fieldTable, row.1 ≤ 4 ∧ (row.1 ≠ 0 → 12 ≤ row.2.2.2.1) := by
  decide

section Field

variable {view fld idx off n : Nat}

theorem listed_view_le (h : Listed view fld idx off n) : view ≤ 4 := by
  obtain ⟨_, _, row, _, _⟩ := h
  exact (table_views _ row).1

theorem listed_behind_tag (h : Listed view fld idx off n) (typed : view ≠ 0) : 12 ≤ off := by
  obtain ⟨_, base, row, _, rfl⟩ := h
  exact Nat.le_add_right_of_le ((table_views _ row).2 typed)

theorem listed_inside (h : Listed view fld idx off n) : off + n ≤ 256 ∧ n ≤ 16 :=
  fieldOf_inside view fld idx _ (fieldOf_of_listed h)

theorem fieldOpen_iff (h : Listed view fld idx off n) (f : Frame) :
    fieldOpen ⟨kindOf view, off, n⟩ f = true ↔ ViewFits view f := by
  rcases Nat.eq_zero_or_pos view with rfl | typed
  · simp [fieldOpen, kindOf, ViewFits]
  · obtain ⟨k, hk, tag⟩ := kindOf_legal ⟨typed, listed_view_le h⟩
    rw [hk, ViewFits, ← tag, or_iff_right (Nat.ne_of_gt typed)]
    exact viewOk_iff k f

/-- Writing a listed field leaves the view fitting: RAW fits any frame, a typed field is not the tag (R177). -/
theorem viewFits_memWrite (h : Listed view fld idx off n) {f : Frame} (fits : ViewFits view f) (v : Nat) :
    ViewFits view (memWrite f off n v) := by
  by_cases raw : view = 0
  · exact .inl raw
  · have behind := listed_behind_tag h raw
    refine .inr (.trans (sumAt_congr fun k hk => ?_) (fits.resolve_left raw))
    rw [byteAt_memWrite _ _ _ _ _ (by omega), if_neg (by omega)]

end Field

/-! ## The two operand forms of the frame-buffer commands -/

section Live

variable {s : State} (live : s.faulted = false)

include live

theorem withKind_legal {kind : Nat} {k : Kind} (run : Kind → State → State) (h : kindOf kind = some k) :
    withKind kind s run = .next (run k s) := by
  rw [withKind, command_live s _ live, h]

theorem withKind_illegal {kind : Nat} (run : Kind → State → State) (illegal : kind = 0 ∨ 4 < kind) :
    withKind kind s run = .next (answered { s with ill := true } .illegalOperand 0) := by
  rw [withKind, command_live s _ live, kindOf_illegal illegal]
  rfl

section Field

variable {view fld idx off n : Nat} (run : Field → State → State)

theorem withField_fits (listed : Listed view fld idx off n) (fits : ViewFits view s.fb) :
    withField view fld idx s run = .next (run ⟨kindOf view, off, n⟩ s) := by
  simp only [withField, command_live s _ live, fieldOf_of_listed listed, if_pos ((fieldOpen_iff listed s.fb).mpr fits)]

theorem withField_misfits (listed : Listed view fld idx off n) (misfits : ¬ ViewFits view s.fb) :
    withField view fld idx s run = .next (answered s .typeMismatch 0) := by
  simp only [withField, command_live s _ live, fieldOf_of_listed listed,
    if_neg (mt (fieldOpen_iff listed s.fb).mp misfits), raise_typeMismatch]

/-- The triple is refused before its tag is looked at (R177, R268). -/
theorem withField_unlisted (unlisted : ¬ ∃ off n, Listed view fld idx off n) :
    withField view fld idx s run = .next (answered { s with ill := true } .illegalOperand 0) := by
  rw [withField, command_live s _ live, fieldOf_of_unlisted unlisted]
  rfl

end Field

/-! ## The commands -/

theorem execFnew_legal {kind : Nat} {k : Kind} (h : kindOf kind = some k) :
    execFnew kind s = .next (answered { s with fb := defaultFrame k } .ok 0) :=
  withKind_legal live _ h

theorem execFchk_matching {kind : Nat} {k : Kind} (h : kindOf kind = some k) (same : sumAt s.fb 8 4 = (tagOf k).toNat) :
    execFchk kind s = .next (answered s .ok 0) := by
  rw [execFchk, withKind_legal live _ h, if_pos ((viewOk_iff k s.fb).mpr same), respond_eq_answered]

theorem execFchk_other {kind : Nat} {k : Kind} (h : kindOf kind = some k) (other : sumAt s.fb 8 4 ≠ (tagOf k).toNat) :
    execFchk kind s = .next (answered s .typeMismatch 0) := by
  rw [execFchk, withKind_legal live _ h, if_neg (mt (viewOk_iff k s.fb).mp other), raise_typeMismatch]

section Field

variable {view fld idx off n : Nat}

theorem execFget_fits (listed : Listed view fld idx off n) (fits : ViewFits view s.fb) :
    execFget view fld idx s = .next (answered s .ok (BitVec.ofNat 128 (memRead s.fb off n))) :=
  withField_fits live _ listed fits

/-- On a frame whose field was just written, FGET answers what was written, cut to the field (R180, R181). -/
theorem execFget_written {f : Frame} {v : Nat} (listed : Listed view fld idx off n) (fits : ViewFits view f)
    (written : s.fb = memWrite f off n v) :
    execFget view fld idx s = .next (answered s .ok (BitVec.ofNat 128 (v % 256 ^ n))) := by
  rw [execFget_fits live listed (written ▸ viewFits_memWrite listed fits v), written,
    memRead_memWrite f off n v (listed_inside listed).1]

theorem execFset_fits (listed : Listed view fld idx off n) (fits : ViewFits view s.fb) :
    execFset view fld idx s = .next (answered { s with fb := memWrite s.fb off n s.wdata.toNat } .ok 0) :=
  withField_fits live _ listed fits

end Field

theorem execFval_live : execFval s = .next (answered { s with fb := sealFrame s.fb } .ok 0) :=
  command_live s _ live

theorem execFisv_sealed (h : CorrectlySealed s.fb) : execFisv s = .next (answered s .ok 1) := by
  rw [execFisv, command_live s _ live, (frameValid_iff s.fb).mpr h]
  rfl

theorem execFisv_unsealed (h : ¬ CorrectlySealed s.fb) : execFisv s = .next (answered s .ok 0) := by
  rw [execFisv, command_live s _ live, Bool.eq_false_iff.mpr (mt (frameValid_iff s.fb).mp h)]
  rfl

end Live

/-! ## The statements -/

/-- Settles O36, from the bytes of the default frame; its stored checksum is 0 and its digest is not. -/
theorem defaultConstructionSetsOnlyTheTag : Obligations.DefaultConstructionSetsOnlyTheTag := by
  intro kind s live _
  unfold exec
  refine ⟨rfl, fun legal => ?legal, withKind_illegal live _⟩
  case legal =>
    obtain ⟨k, hk, tag⟩ := kindOf_legal legal
    exact ⟨defaultFrame k, execFnew_legal live hk, tag ▸ sumAt_defaultFrame k, fun _ => byteAt_defaultFrame k,
      not_correctlySealed_defaultFrame k⟩

/-- Settles O37: FCHK branches on the tag alone. -/
theorem kindCheckLooksAtTheTagOnly : Obligations.KindCheckLooksAtTheTagOnly := by
  intro kind s live _
  unfold exec
  refine ⟨rfl, fun legal same => ?same, fun legal other => ?other, withKind_illegal live _⟩
  all_goals obtain ⟨k, hk, tag⟩ := kindOf_legal legal
  case same => exact execFchk_matching live hk (tag ▸ same)
  case other => exact execFchk_other live hk (tag ▸ other)

/-- Settles O38: a listed field lies inside the frame, so the integer read there is the sum of its bytes. -/
theorem fieldReadsFollowTheTable : Obligations.FieldReadsFollowTheTable := by
  intro view fld idx s live _ _ _
  unfold exec
  refine ⟨rfl, fun off n listed fits => ?_, fun _ _ => withField_misfits live _, withField_unlisted live _⟩
  rw [sumAt_eq_memRead s.fb (listed_inside listed).1]
  exact execFget_fits live listed fits

/-- Settles O39, from what `memWrite` does to each byte of the frame. -/
theorem fieldWritesNeverSpill : Obligations.FieldWritesNeverSpill := by
  intro view fld idx s live _ _ _
  unfold exec
  refine ⟨rfl, fun off n listed fits =>
      ⟨_, execFset_fits live listed fits, fun k hk => ?inside, fun a ha outside => ?outside⟩,
    fun _ _ => withField_misfits live _, withField_unlisted live _⟩
  case inside =>
    have bound := (listed_inside listed).1
    rw [byteAt_memWrite _ _ _ _ _ (by omega), if_pos (by omega), Nat.add_sub_cancel_left, ofNat_digit_eq_lane]
  case outside => rw [byteAt_memWrite _ _ _ _ _ ha, if_neg (by omega)]

/-- Settles O40: the write keeps the view fitting, so the read runs, on the bytes just written. -/
theorem fieldReadsBackWhatWasWritten : Obligations.FieldReadsBackWhatWasWritten := by
  intro view fld idx off n s live listed fits
  unfold exec
  exact ⟨_, execFset_fits live listed fits, execFget_written (by exact live) listed fits rfl⟩

/-- Settles O41: sealing writes the digest below which no byte changes. -/
theorem validateWritesTheChecksum : Obligations.ValidateWritesTheChecksum := by
  intro s live
  unfold exec
  refine ⟨rfl, ⟨sealFrame s.fb, execFval_live live, fun _ => byteAt_sealFrame_of_lt, ?_⟩,
    rfl, execFisv_sealed live, execFisv_unsealed live⟩
  rw [sumAt_eq_memRead _ (by decide), memRead_sealFrame, computedChecksum_eq_digestOf]

/-- Settles O42: FVAL leaves a sealed frame, and no frame one byte away from it is sealed. -/
theorem validatedFrameDetectsEveryByteChange : Obligations.ValidatedFrameDetectsEveryByteChange := by
  intro s t live run
  unfold exec at run ⊢
  cases (execFval_live live).symm.trans run
  have sealed := correctlySealed_sealFrame s.fb
  exact ⟨execFisv_sealed live sealed, fun u a liveToo ha changed same =>
    execFisv_unsealed liveToo (not_correctlySealed_of_changed_byte ha sealed changed same)⟩

end Sys2Proof.Machine

end

/-! # Proofs of the Builder statements

Each frame of the Builder is a few integers and a label written over zeros and sealed, so its fields are read off one
write at a time.  `exec_emits` says once which frame a command can hand over.  On the Loader's side, a frame that passes
in its place leaves only its own arm of the dispatch to run; the Builder's frames pass, and carry the right tag. -/

section

namespace Sys2Proof.Machine

open Sys2Proof.Safety Sys2Proof.Statements

/-! ## Integers in a frame under construction -/

section Sums

variable {m : Nat} (buf : Buffer m) {off n off' n' : Nat}

/-- What is written elsewhere does not reach a field (R63). -/
@[simp] theorem sumAt_writeBytes_disjoint (bs : List Byte) (inside : off' + n' ≤ m)
    (apart : off' + n' ≤ off ∨ off + bs.length ≤ off') : sumAt (writeBytes buf off bs) off' n' = sumAt buf off' n' :=
  sumAt_congr fun k hk => by rw [byteAt_writeBytes _ _ _ _ (by omega), if_neg (by omega)]

@[simp] theorem sumAt_memWrite_disjoint (v : Nat) (inside : off' + n' ≤ m)
    (apart : off' + n' ≤ off ∨ off + n ≤ off') : sumAt (memWrite buf off n v) off' n' = sumAt buf off' n' :=
  sumAt_writeBytes_disjoint buf _ inside (by rwa [bytesOfNat_length])

/-- What is written in a field reads back, cut to the field (R63). -/
theorem sumAt_memWrite_self (v : Nat) (inside : off + n ≤ m) : sumAt (memWrite buf off n v) off n = v % 256 ^ n := by
  rw [sumAt_eq_memRead _ inside, memRead_memWrite buf off n v inside]

/-- A 128-bit field holds a whole wide value (R61). -/
@[simp] theorem sumAt_memWrite_wide (v : Wide) (inside : off + 16 ≤ m) :
    sumAt (memWrite buf off 16 v.toNat) off 16 = v.toNat :=
  (sumAt_memWrite_self buf v.toNat inside).trans (Nat.mod_eq_of_lt v.isLt)

/-- A 32-bit field holds the low 32 bits (R60). -/
@[simp] theorem sumAt_memWrite_word (v : Nat) (inside : off + 4 ≤ m) :
    sumAt (memWrite buf off 4 v) off 4 = v % 2 ^ 32 :=
  sumAt_memWrite_self buf v inside

/-- The sequence field holds the low 64 bits of an index (R60). -/
@[simp] theorem sumAt_memWrite_sequence (v : Nat) (inside : off + 8 ≤ m) :
    sumAt (memWrite buf off 8 v) off 8 = v % 2 ^ 64 :=
  sumAt_memWrite_self buf v inside

@[simp] theorem sumAt_blankFrame : sumAt blankFrame off n = 0 := by
  simp [sumAt, blankFrame]

/-- Sealing changes the checksum alone (R184). -/
@[simp] theorem sumAt_sealFrame (f : Frame) (below : off + n ≤ 252) : sumAt (sealFrame f) off n = sumAt f off n :=
  sumAt_congr fun _ _ => byteAt_sealFrame_of_lt (by omega)

end Sums

/-! ## The fields of the four frames -/

section Head

variable (label : Label) (count size : Wide)

theorem headFrame_sequence : sumAt (headFrame label count size) 0 8 = 0 := by
  simp [headFrame]

theorem headFrame_tag : sumAt (headFrame label count size) 8 4 = cfg.tagHead.toNat := by
  simp [headFrame]

theorem headFrame_version : sumAt (headFrame label count size) 12 4 = 0x100 := by
  simp [headFrame]

theorem headFrame_count : sumAt (headFrame label count size) 16 16 = count.toNat := by
  simp [headFrame]

theorem headFrame_size : sumAt (headFrame label count size) 64 16 = size.toNat := by
  simp [headFrame]

theorem headFrame_label {k : Nat} (hk : k < 32) : byteAt (headFrame label count size) (32 + k) = byteAt label k := by
  rw [byteAt_headFrame _ _ _ _ (by omega), if_neg (by omega), if_pos (by omega), Nat.add_sub_cancel_left]

theorem headFrame_rest {a : Nat} (above : 80 ≤ a) (below : a < 252) : byteAt (headFrame label count size) a = 0 := by
  rw [byteAt_headFrame _ _ _ _ below]
  simp (disch := omega) only [if_neg]

theorem headFrame_sealed : CorrectlySealed (headFrame label count size) := correctlySealed_sealFrame _

end Head

section Data

variable (index : Wide) (payload : Payload) {size : Nat}

theorem dataFrame_sequence (size : Nat) : sumAt (dataFrame index payload size) 0 8 = index.toNat % 2 ^ 64 := by
  simp [dataFrame]

theorem dataFrame_tag (size : Nat) : sumAt (dataFrame index payload size) 8 4 = cfg.tagData.toNat := by
  simp [dataFrame]

theorem dataFrame_payload (legal : size ≤ 240) {k : Nat} (hk : k < size) :
    byteAt (dataFrame index payload size) (12 + k) = byteAt payload k := by
  rw [byteAt_dataFrame _ _ _ legal _ (by omega), if_pos (by omega), Nat.add_sub_cancel_left]

theorem dataFrame_rest (legal : size ≤ 240) {k : Nat} (above : size ≤ k) (below : k < 240) :
    byteAt (dataFrame index payload size) (12 + k) = 0 := by
  rw [byteAt_dataFrame _ _ _ legal _ (by omega)]
  simp (disch := omega) only [if_neg]

theorem dataFrame_sealed (size : Nat) : CorrectlySealed (dataFrame index payload size) := correctlySealed_sealFrame _

end Data

section Continuation

variable (index : Wide) (label : Label)

theorem contFrame_sequence : sumAt (contFrame index label) 0 8 = index.toNat % 2 ^ 64 := by
  simp [contFrame]

theorem contFrame_tag : sumAt (contFrame index label) 8 4 = cfg.tagCont.toNat := by
  simp [contFrame]

theorem contFrame_version : sumAt (contFrame index label) 12 4 = 0 := by
  simp [contFrame]

theorem contFrame_index : sumAt (contFrame index label) 16 16 = index.toNat := by
  simp [contFrame]

theorem contFrame_label {k : Nat} (hk : k < 32) : byteAt (contFrame index label) (32 + k) = byteAt label k := by
  rw [byteAt_contFrame _ _ _ (by omega), if_pos (by omega), Nat.add_sub_cancel_left]

theorem contFrame_rest {a : Nat} (above : 64 ≤ a) (below : a < 252) : byteAt (contFrame index label) a = 0 := by
  rw [byteAt_contFrame _ _ _ below]
  simp (disch := omega) only [if_neg]

theorem contFrame_sealed : CorrectlySealed (contFrame index label) := correctlySealed_sealFrame _

end Continuation

section Finish

variable (index total : Wide)

theorem finishFrame_sequence : sumAt (finishFrame index total) 0 8 = index.toNat % 2 ^ 64 := by
  simp [finishFrame]

theorem finishFrame_tag : sumAt (finishFrame index total) 8 4 = cfg.tagFinf.toNat := by
  simp [finishFrame]

theorem finishFrame_version : sumAt (finishFrame index total) 12 4 = 0 := by
  simp [finishFrame]

theorem finishFrame_count : sumAt (finishFrame index total) 16 16 = (index + 1).toNat := by
  simp [finishFrame, -BitVec.toNat_add]

theorem finishFrame_size : sumAt (finishFrame index total) 64 16 = total.toNat := by
  simp [finishFrame]

theorem finishFrame_hash {k : Nat} (hk : k < 32) : byteAt (finishFrame index total) (32 + k) = 0 := by
  rw [byteAt_finishFrame _ _ _ (by omega)]
  simp (disch := omega) only [if_neg]

theorem finishFrame_rest {a : Nat} (above : 80 ≤ a) (below : a < 252) : byteAt (finishFrame index total) a = 0 := by
  rw [byteAt_finishFrame _ _ _ below]
  simp (disch := omega) only [if_neg]

theorem finishFrame_sealed : CorrectlySealed (finishFrame index total) := correctlySealed_sealFrame _

end Finish

/-! ## The Builder's commands -/

/-- The guard of R202. -/
theorem builderOpen_iff (b : Builder) : builderOpen b = true ↔ b.wroteHead = true ∧ b.wroteFinish = false := by
  simp [builderOpen]

theorem builderOpen_eq_false {b : Builder} (closed : ¬ (b.wroteHead = true ∧ b.wroteFinish = false)) :
    builderOpen b = false :=
  Bool.eq_false_iff.mpr (mt (builderOpen_iff b).mp closed)

theorem afterHead_eq (b : Builder) :
    afterHead b = { b with wroteHead := true, index := if b.wroteFinish then b.index else b.index + 1 } := by
  rw [afterHead, wideInc_eq]

section Live

variable {s : State} (live : s.faulted = false)

include live

theorem execBinit_live : execBinit s = .next (answered
    { s with b := { label := s.lbl, index := 0, total := 0, wroteHead := false, wroteFinish := false } } .ok 0) :=
  command_live s _ live

/-- A guarded command of an open Builder runs (R202). -/
theorem command_guarded_open (run : State → State) (head : s.b.wroteHead = true) (finish : s.b.wroteFinish = false) :
    command s (guarded run) = .next (run s) := by
  rw [command_live s _ live, guarded_open s run ((builderOpen_iff s.b).mpr ⟨head, finish⟩)]

/-- A guarded command of any other Builder answers 0 and does nothing (R202). -/
theorem command_guarded_closed (run : State → State) (closed : ¬ (s.b.wroteHead = true ∧ s.b.wroteFinish = false)) :
    command s (guarded run) = .next (answered s .ok 0) := by
  rw [command_live s _ live, guarded_closed s run (builderOpen_eq_false closed)]

end Live

/-- In range, BWDATA is a guarded command like the other two (R109, R207). -/
theorem checked_sizeLegal {size : Nat} (legal : size ≤ 240) (s : State) (run : State → State) :
    checked (sizeLegal size) s run = command s run := by
  rw [checked, sizeLegal, decide_eq_true legal]
  rfl

theorem checked_sizeIllegal {size : Nat} (out : 240 < size) {s : State} (live : s.faulted = false)
    (run : State → State) :
    checked (sizeLegal size) s run = .next (answered { s with ill := true } .illegalOperand 0) := by
  rw [sizeLegal, decide_eq_false (by omega), checked_illegal s run live]

/-- Settles O46: BINIT's one write, and R20's row for the label. -/
theorem builderConstruction : Obligations.BuilderConstruction := by
  refine ⟨fun s live => ⟨rfl, execBinit_live live⟩, fun i s t run other => ?_⟩
  obtain ⟨-, -, -, -, -, -, label, -⟩ := onlyListedCommandsWrite.1 i s t run
  exact not_imp_comm.mp label other

/-- Settles O47: both commands are `writeHead`, on the running or on the given totals. -/
theorem headCommandsWriteAHead : Obligations.HeadCommandsWriteAHead := by
  intro i ra rb count size s live which
  have run : exec i s = .next (writeHead count size s) := by
    obtain ⟨rfl, rfl, rfl⟩ | ⟨rfl, rfl, rfl⟩ := which <;> exact command_live s _ live
  refine ⟨rfl, rfl, _, headFrame s.b.label count size, run, afterHead_eq s.b ▸ writeFrame_handsOver s _ _, ?_⟩
  exact ⟨headFrame_sequence _ _ _, headFrame_tag _ _ _, headFrame_version _ _ _, headFrame_count _ _ _,
    fun _ => headFrame_label _ _ _, headFrame_size _ _ _, fun _ => headFrame_rest _ _ _, headFrame_sealed _ _ _⟩

/-- Settles O48: the range check, then the guard, then one Data frame. -/
theorem dataCommandWritesADataFrame : Obligations.DataCommandWritesADataFrame := by
  intro size s live _
  unfold exec
  refine ⟨rfl, fun out => checked_sizeIllegal out live _,
    fun legal closed => (checked_sizeLegal legal s _).trans (command_guarded_closed live _ closed),
    fun legal head finish => ⟨_, dataFrame s.b.index s.pb size,
      (checked_sizeLegal legal s _).trans (command_guarded_open live _ head finish), ?_, dataFrame_sequence _ _ _,
      dataFrame_tag _ _ _, fun _ => dataFrame_payload _ _ legal, fun _ => dataFrame_rest _ _ legal,
      dataFrame_sealed _ _ _⟩⟩
  rw [wideInc_eq, wideAdd_eq]
  exact writeFrame_handsOver s _ _

/-- Settles O49: the guard, then one Continuation frame. -/
theorem continuationCommandWritesAContinuation : Obligations.ContinuationCommandWritesAContinuation := by
  intro s live
  unfold exec
  refine ⟨rfl, command_guarded_closed live _, fun head finish => ⟨_, contFrame s.b.index s.b.label,
    command_guarded_open live _ head finish, ?_, contFrame_sequence _ _, contFrame_tag _ _, contFrame_version _ _,
    contFrame_index _ _, fun _ => contFrame_label _ _, fun _ => contFrame_rest _ _, contFrame_sealed _ _⟩⟩
  rw [wideInc_eq]
  exact writeFrame_handsOver s _ _

/-- Settles O50: the guard, then the Finish frame, whose count is the index plus one in 128 bits. -/
theorem finishCommandWritesAFinish : Obligations.FinishCommandWritesAFinish := by
  intro s live
  unfold exec
  exact ⟨rfl, command_guarded_closed live _, fun head finish => ⟨_, finishFrame s.b.index s.b.total,
    command_guarded_open live _ head finish, writeFrame_handsOver s _ _, finishFrame_sequence _ _,
    finishFrame_tag _ _, finishFrame_version _ _, (finishFrame_count _ _).trans (BitVec.toNat_add _ _),
    fun _ => finishFrame_hash _ _, finishFrame_size _ _, fun _ => finishFrame_rest _ _, finishFrame_sealed _ _⟩⟩

/-! ## The frame a command hands over -/

/-- The one frame each frame-writing command builds from the state before it (R200, R206 to R209). -/
inductive BuiltFrame (s : State) : Instr → Frame → Prop
  | bwhead : BuiltFrame s .bwhead (headFrame s.b.label s.b.index s.b.total)
  | bwheadx {ra rb : Reg} : BuiltFrame s (.bwheadx ra rb) (headFrame s.b.label (s.reg ra) (s.reg rb))
  | bwdata {size : Nat} (legal : size ≤ 240) : BuiltFrame s (.bwdata size) (dataFrame s.b.index s.pb size)
  | bwcont : BuiltFrame s .bwcont (contFrame s.b.index s.b.label)
  | bwfin : BuiltFrame s .bwfin (finishFrame s.b.index s.b.total)

/-- Whenever the host accepts exactly one more frame from `s` to `t`, that frame has the property `P`. -/
def EmitsOnly (P : Frame → Prop) (s t : State) : Prop := ∀ F, t.host.txFrames = s.host.txFrames ++ [F] → P F

section Emits

variable {P : Frame → Prop} {s t : State}

/-- A run that leaves the accepted frames as they are emits nothing. -/
theorem EmitsOnly.quiet (same : t.host.txFrames = s.host.txFrames) : EmitsOnly P s t :=
  fun F grows => absurd (same.symm.trans grows) (by simp)

theorem EmitsOnly.writeFrame {f : Frame} {b : Builder} (hf : P f) : EmitsOnly P s (writeFrame f b s) := by
  obtain ⟨-, ht, -⟩ | ⟨-, ht⟩ := writeFrame_handsOver s f b
  · intro F grows
    have frames : s.host.txFrames ++ [f] = s.host.txFrames ++ [F] := (congrArg (·.host.txFrames) ht).symm.trans grows
    obtain rfl : f = F := by simpa using frames
    exact hf
  · exact .quiet (congrArg (·.host.txFrames) ht)

theorem EmitsOnly.guarded {run : State → State} (hrun : EmitsOnly P s (run s)) : EmitsOnly P s (guarded run s) := by
  cases h : builderOpen s.b with
  | true => rwa [guarded_open s run h]
  | false => rw [guarded_closed s run h]; exact .quiet rfl

theorem EmitsOnly.command {run : State → State} (h : command s run = .next t) (hrun : EmitsOnly P s (run s)) :
    EmitsOnly P s t := by
  obtain rfl | rfl := command_inv h
  · exact .quiet rfl
  · exact hrun

theorem EmitsOnly.checked {legal : Bool} {run : State → State} (h : checked legal s run = .next t)
    (hrun : legal = true → EmitsOnly P s (run s)) : EmitsOnly P s t := by
  refine .command h ?_
  cases legal
  · exact .quiet rfl
  · exact hrun rfl

end Emits

/-- A command hands over no frame but the one it builds: of the Builder's own commands each builds one, and no other
command emits (R77, R200). -/
theorem exec_emits {i : Instr} {s t : State} (h : exec i s = .next t) : EmitsOnly (BuiltFrame s i) s t := by
  obtain ⟨same | ⟨builder, writes, -⟩, -⟩ := atMostOneStreamOperation i s t h
  · exact .quiet same
  · unfold exec at h
    cases i with
    | binit => exact absurd rfl writes
    | bwhead => exact .command h (.writeFrame .bwhead)
    | bwheadx => exact .command h (.writeFrame .bwheadx)
    | bwdata => exact .checked h fun legal => .guarded (.writeFrame (.bwdata (of_decide_eq_true legal)))
    | bwcont => exact .command h (.guarded (.writeFrame .bwcont))
    | bwfin => exact .command h (.guarded (.writeFrame .bwfin))
    | _ => exact builder.elim

theorem BuiltFrame.sealed {i : Instr} {s : State} {F : Frame} (built : BuiltFrame s i F) : CorrectlySealed F := by
  cases built <;> exact correctlySealed_sealFrame _

/-- Only a Head has sequence 0 by construction; the others carry the index (R206, R212). -/
theorem BuiltFrame.sequence {i : Instr} {s : State} {F : Frame} (built : BuiltFrame s i F) :
    sumAt F 8 4 = cfg.tagHead.toNat ∧ sumAt F 0 8 = 0 ∨
      sumAt F 8 4 ≠ cfg.tagHead.toNat ∧ sumAt F 0 8 = s.b.index.toNat % 2 ^ 64 := by
  cases built with
  | bwhead | bwheadx => exact .inl ⟨headFrame_tag _ _ _, headFrame_sequence _ _ _⟩
  | bwdata => exact .inr ⟨by rw [dataFrame_tag]; decide, dataFrame_sequence _ _ _⟩
  | bwcont => exact .inr ⟨by rw [contFrame_tag]; decide, contFrame_sequence _ _⟩
  | bwfin => exact .inr ⟨by rw [finishFrame_tag]; decide, finishFrame_sequence _ _⟩

/-- Settles O51: the frame handed over is the one the command built. -/
theorem everyEmittedFrameIsValid : Obligations.EveryEmittedFrameIsValid := by
  intro i s t F run grows
  have built : BuiltFrame s i F := exec_emits run F grows
  exact ⟨built.sealed, (frameValid_iff F).mpr built.sealed, built.sequence⟩

/-! ## A frame read by the Loader -/

theorem frameTag_eq_iff (f : Frame) (tag : Word32) : frameTag f = tag ↔ sumAt f 8 4 = tag.toNat :=
  ofNat_memRead_eq_iff f (by decide) tag

theorem wideAt_eq_iff (f : Frame) {off : Nat} (inside : off + 16 ≤ 256) (v : Wide) :
    wideAt f off = v ↔ sumAt f off 16 = v.toNat := by
  have bound : memRead f off 16 < 2 ^ 128 := memRead_lt f off 16 inside
  rw [wideAt, sumAt_eq_memRead f inside, ← BitVec.toNat_inj, BitVec.toNat_ofNat, Nat.mod_eq_of_lt bound]

theorem frameSequence_setWidth_eq_iff (f : Frame) (v : Wide) :
    (frameSequence f).setWidth 128 = v ↔ sumAt f 0 8 = v.toNat := by
  have bound : memRead f 0 8 < 2 ^ 64 := memRead_lt f 0 8 (by decide)
  have wide : memRead f 0 8 < 2 ^ 128 := bound.trans (by decide)
  rw [frameSequence, sumAt_eq_memRead f (by decide), ← BitVec.toNat_inj, BitVec.toNat_setWidth, BitVec.toNat_ofNat,
    Nat.mod_eq_of_lt bound, Nat.mod_eq_of_lt wide]

theorem finishFrame_wideCount (index total : Wide) : wideAt (finishFrame index total) 16 = index + 1 :=
  (wideAt_eq_iff _ (by decide) _).mpr (finishFrame_count index total)

theorem finishFrame_wideSize (index total : Wide) : wideAt (finishFrame index total) 64 = total :=
  (wideAt_eq_iff _ (by decide) _).mpr (finishFrame_size index total)

/-- The machine's validation is the spec's, at the running index (R225). -/
theorem frameAccepted_iff (f : Frame) (l : Loader) : frameAccepted f l = true ↔ Passes f l.index := by
  rw [frameAccepted, Bool.and_eq_true, frameValid_iff, beq_iff_eq, frameSequence_setWidth_eq_iff, Passes]

/-- A frame that passes leaves the fault flag as it was (R225). -/
theorem judge_of_passes {f : Frame} {l : Loader} (passes : Passes f l.index) : judge f l = l := by
  simp [judge, (frameAccepted_iff f l).mpr passes]

@[simp] theorem beginRead_index (l : Loader) : (beginRead l).index = nextIndex l := by
  rw [beginRead, nextIndex, wideInc_eq]

/-- The state LNEXT leaves when the source has the frame `f` (R223). -/
def received (f : Frame) (s : State) : State :=
  (((recv s).setLf f).setL (dispatchFrame f (judge f (beginRead s.l)))).respond 1

theorem exec_lnext_received {s : State} {f : Frame} (live : s.faulted = false) (reading : s.l.readfinf = false)
    (arrives : rxAnswer s = some f) : exec .lnext s = .next (received f s) := by
  unfold exec
  refine (command_live s _ live).trans ?_
  rw [reading, arrives]
  rfl

/-- A frame read in its place only runs its arm of the dispatch (R223, R225). -/
theorem received_l_of_passes {s : State} {f : Frame} (passes : Passes f (nextIndex s.l)) :
    (received f s).l = dispatchFrame f (beginRead s.l) := by
  rw [received, State.respond_l, State.setL_l, judge_of_passes (by rwa [beginRead_index])]

section Dispatch

variable {f : Frame} {l : Loader} (head : l.readhead = true) (reading : l.readfinf = false)

include head reading

/-- The Data arm (R228). -/
theorem dispatchFrame_data (tag : sumAt f 8 4 = cfg.tagData.toNat) :
    dispatchFrame f l = { l with dindex := l.dindex + 240 } := by
  have data : frameTag f = cfg.tagData := (frameTag_eq_iff f _).mpr tag
  simp [dispatchFrame, data, head, reading, wideAdd_eq]

/-- The Finish arm (R227): the totals are taken from the frame when the Head had none. -/
theorem dispatchFrame_finish (tag : sumAt f 8 4 = cfg.tagFinf.toNat) :
    dispatchFrame f l =
      if l.count = 0 ∧ l.size = 0 then { l with count := wideAt f 16, size := wideAt f 64, readfinf := true }
      else { l with readfinf := true } := by
  have finish : frameTag f = cfg.tagFinf := (frameTag_eq_iff f _).mpr tag
  simp [dispatchFrame, finish, head, reading]

end Dispatch

/-- LGDATA on a Data frame: the first bytes of its payload, and zeros (R231). -/
theorem byteAt_extractedPayload {f : Frame} {limit k : Nat} (tag : sumAt f 8 4 = cfg.tagData.toNat)
    (legal : limit ≤ 240) (hk : k < 240) :
    byteAt (extractedPayload f limit) k = if k < limit then byteAt f (12 + k) else 0 := by
  rw [extractedPayload, if_pos ((frameTag_eq_iff f _).mpr tag), bufferOf, byteAt_writeBytes _ _ _ _ hk,
    readBytes_length f 12 limit (by omega), byteAt_zeroBuffer]
  by_cases copied : k < limit
  · rw [if_pos (by omega), if_pos copied, Nat.sub_zero, readBytes_getD f 12 limit k copied]
  · rw [if_neg (by omega), if_neg copied]

theorem exec_lgdata_data {s : State} {limit : Nat} (live : s.faulted = false) (legal : limit ≤ 240)
    (tag : sumAt s.lf 8 4 = cfg.tagData.toNat) :
    exec (.lgdata limit) s =
      .next ((s.setPb (extractedPayload s.lf limit)).respond (BitVec.ofNat 128 limit)) := by
  unfold exec
  refine (checked_sizeLegal legal s _).trans ((command_live s _ live).trans ?_)
  rw [if_pos ((frameTag_eq_iff s.lf _).mpr tag)]

/-- LCHK answers 1 when no fault was flagged and the running index is the last of the recorded count (R232). -/
theorem exec_lchk_success {s : State} (live : s.faulted = false) (finish : s.l.readfinf = true)
    (sound : s.l.fault = false) (count : s.l.index + 1 = s.l.count) : exec .lchk s = .next (answered s .ok 1) := by
  unfold exec
  refine (command_live s _ live).trans ?_
  rw [finish, sound, wideInc_eq, count]
  simp [bitAnswer, respond_eq_answered]

/-! ## From Builder to Loader -/

/-- Below `2^64` the sequence field holds the whole index, so a Data frame passes in its place (R84, R207, R212). -/
theorem passes_dataFrame {index n : Wide} (small : index.toNat < 2 ^ 64) (inPlace : n = index) (payload : Payload)
    (size : Nat) : Passes (dataFrame index payload size) n := by
  rw [inPlace]
  exact ⟨dataFrame_sealed _ _ _, (dataFrame_sequence _ _ _).trans (Nat.mod_eq_of_lt small)⟩

theorem passes_finishFrame {index n : Wide} (small : index.toNat < 2 ^ 64) (inPlace : n = index) (total : Wide) :
    Passes (finishFrame index total) n := by
  rw [inPlace]
  exact ⟨finishFrame_sealed _ _, (finishFrame_sequence _ _).trans (Nat.mod_eq_of_lt small)⟩

/-- Settles O58: the frame passes, so LNEXT runs the Data arm alone, and LGDATA takes the payload's bytes back. -/
theorem builtDataFrameLoadsBack : Obligations.BuiltDataFrameLoadsBack := by
  intro size s t u F run grows small live head reading inPlace arrives
  cases exec_emits run F grows with | bwdata legal =>
  have tag := dataFrame_tag s.b.index s.pb size
  have loader : (received _ u).l = { beginRead u.l with dindex := u.l.dindex + 240 } :=
    (received_l_of_passes (passes_dataFrame small inPlace s.pb size)).trans
      (dispatchFrame_data (l := beginRead u.l) head reading tag)
  refine ⟨_, _, exec_lnext_received live reading arrives, rfl, by rw [loader]; rfl, ?index, by rw [loader],
    exec_lgdata_data (by exact live) legal tag, rfl, fun k hk => ?copied, fun k above below => ?zero⟩
  case index => rw [loader]; exact (beginRead_index u.l).trans inPlace
  case copied =>
    refine (byteAt_extractedPayload tag legal (by omega)).trans ?_
    rw [if_pos hk, dataFrame_payload _ _ legal hk]
  case zero =>
    refine (byteAt_extractedPayload tag legal below).trans ?_
    rw [if_neg (by omega)]

/-- Settles O59: the frame passes, so LNEXT runs the Finish arm alone, and whichever counts it keeps, the count is the
Builder's index plus one. -/
theorem builtFinishGivesTheVerdict : Obligations.BuiltFinishGivesTheVerdict := by
  intro s t u F run grows small live head reading sound inPlace arrives totals
  cases exec_emits run F grows with | bwfin =>
  have loader := (received_l_of_passes (passes_finishFrame small inPlace s.b.total)).trans
    (dispatchFrame_finish (l := beginRead u.l) head reading (finishFrame_tag s.b.index s.b.total))
  have lnext := exec_lnext_received live reading arrives
  have stillLive : (received (finishFrame s.b.index s.b.total) u).faulted = false := live
  rw [finishFrame_wideCount, finishFrame_wideSize] at loader
  generalize received (finishFrame s.b.index s.b.total) u = v at loader lnext stillLive
  have place : (beginRead u.l).index = s.b.index := (beginRead_index u.l).trans inPlace
  obtain ⟨finished, unfaulted, index, count, size⟩ : v.l.readfinf = true ∧ v.l.fault = false ∧
      v.l.index = s.b.index ∧ v.l.count = s.b.index + 1 ∧ (u.l.count = 0 ∧ u.l.size = 0 → v.l.size = s.b.total) := by
    rw [loader]
    split_ifs with provisional
    · exact ⟨rfl, sound, place, rfl, fun _ => rfl⟩
    · exact ⟨rfl, sound, place, totals.resolve_left provisional, fun zero => absurd zero provisional⟩
  exact ⟨v, lnext, exec_lchk_success stillLive finished unfaulted (by rw [index, count]), count, size⟩

end Sys2Proof.Machine

end

/-! # Proofs of the Loader statements

LNEXT begins the read, judges the frame and runs one arm of the dispatch.  What each stage makes of the Loader's record
is said once, and the equation of each arm gives its clause of R223; every other Loader command is one run behind the
latch gate. -/

section

namespace Sys2Proof.Machine

open Sys2Proof.Safety Sys2Proof.Statements

/-! ## The fields a Head or a Finish brings -/

theorem toNat_wideAt (f : Frame) {off : Nat} (inside : off + 16 ≤ 256) : (wideAt f off).toNat = sumAt f off 16 :=
  ((wideAt_eq_iff f inside _).mp rfl).symm

/-- A captured label has the frame's bytes (R226). -/
theorem byteAt_labelAt (f : Frame) {off k : Nat} (inside : off + 32 ≤ 256) (hk : k < 32) :
    byteAt (labelAt f off) k = byteAt f (off + k) := by
  rw [labelAt, bufferOf, byteAt_writeBytes _ _ _ _ hk, readBytes_length f off 32 inside, if_pos (by omega),
    Nat.sub_zero, readBytes_getD f off 32 k hk]

/-- The version test is the unsigned comparison of the field (R226). -/
theorem versionSupported_iff (f : Frame) : versionSupported f = true ↔ sumAt f 12 4 ≤ 0x100 := by
  rw [versionSupported, sumAt_eq_memRead f (by decide)]
  exact decide_eq_true_iff

/-! ## Before the dispatch -/

/-- The record the dispatch starts from: the index advanced and the verdict on the frame recorded (R224, R225). -/
theorem judge_beginRead (f : Frame) (l : Loader) :
    judge f (beginRead l) = { l with
      index := nextIndex l, started := true, fault := l.fault || !frameAccepted f (beginRead l) } := by
  rw [← beginRead_index]
  rfl

theorem frameRejected_iff (f : Frame) (l : Loader) :
    (!frameAccepted f (beginRead l)) = true ↔ ¬ Passes f (nextIndex l) := by
  rw [Bool.not_eq_true', Bool.eq_false_iff, Ne, frameAccepted_iff, beginRead_index]

/-! ## The dispatch -/

section Kept

variable (f : Frame) (l : Loader)

/-- The index is advanced before the dispatch only (R224). -/
@[simp] theorem dispatchFrame_index : (dispatchFrame f l).index = l.index := by
  unfold dispatchFrame
  split_ifs <;> rfl

@[simp] theorem dispatchFrame_started : (dispatchFrame f l).started = l.started := by
  unfold dispatchFrame
  split_ifs <;> rfl

/-- A recorded Finish stays recorded: the one arm that writes the flag sets it (R221, R227). -/
theorem dispatchFrame_readfinf (done : l.readfinf = true) : (dispatchFrame f l).readfinf = true := by
  unfold dispatchFrame
  split_ifs with head version finish provisional data
  · exact done
  · exact done
  · rfl
  · rfl
  · exact done
  · exact done

end Kept

section Arms

variable {f : Frame} {l : Loader}

/-- The Head arm, for a supported version (R226). -/
theorem dispatchFrame_head (tag : sumAt f 8 4 = cfg.tagHead.toNat) (first : l.readhead = false)
    (version : sumAt f 12 4 ≤ 0x100) :
    dispatchFrame f l =
      { l with label := labelAt f 32, count := wideAt f 16, size := wideAt f 64, readhead := true } := by
  rw [dispatchFrame, if_pos ⟨(frameTag_eq_iff f _).mpr tag, first⟩, if_pos ((versionSupported_iff f).mpr version)]

/-- A frame that meets no arm's condition, an unsupported Head among them, changes nothing (R226, R229). -/
theorem dispatchFrame_other
    (noHead : ¬ (sumAt f 8 4 = cfg.tagHead.toNat ∧ l.readhead = false ∧ sumAt f 12 4 ≤ 0x100))
    (noFinish : ¬ (sumAt f 8 4 = cfg.tagFinf.toNat ∧ l.readhead = true))
    (noData : ¬ (sumAt f 8 4 = cfg.tagData.toNat ∧ l.readhead = true)) : dispatchFrame f l = l := by
  simp only [← frameTag_eq_iff, ← versionSupported_iff] at noHead noFinish noData
  unfold dispatchFrame
  split_ifs with head version finish provisional data
  · exact absurd ⟨head.1, head.2, version⟩ noHead
  · rfl
  · exact absurd ⟨finish.1, finish.2.1⟩ noFinish
  · exact absurd ⟨finish.1, finish.2.1⟩ noFinish
  · exact absurd ⟨data.1, data.2.1⟩ noData
  · rfl

end Arms

/-! ## The Loader's commands -/

/-- A recorded Finish survives every command but LINIT (R221). -/
theorem exec_keeps_loader_finish {i : Instr} {s t : State} (h : exec i s = .next t) (hf : s.l.readfinf = true)
    (hi : i ≠ .linit) : t.l.readfinf = true := by
  cases exec_write h with
  | linit => exact absurd rfl hi
  | received => exact dispatchFrame_readfinf _ (judge _ (beginRead s.l)) hf
  | nothing | register | crc | frameBuffer | payload | label | binit | books | noFrame | divByZero | refused => exact hf

theorem extractedPayload_other {f : Frame} (other : sumAt f 8 4 ≠ cfg.tagData.toNat) (limit : Nat) :
    extractedPayload f limit = zeroBuffer 240 :=
  if_neg (mt (frameTag_eq_iff f _).mp other)

/-- The test of LCHK as an equation between numbers (R232). -/
theorem succ_eq_iff_toNat (a b : Wide) : a + 1 = b ↔ (a.toNat + 1) % 2 ^ 128 = b.toNat := by
  rw [← BitVec.toNat_inj, BitVec.toNat_add]
  rfl

section Live

variable {s : State} (live : s.faulted = false)

include live

theorem execLinit_live : execLinit s = .next (answered { s with lf := blankFrame, l := Loader.reset } .ok 0) :=
  command_live s _ live

/-- In the Done state LNEXT makes no request (R222). -/
theorem execLnext_done (done : s.l.readfinf = true) : execLnext s = .next (answered s .ok 0) := by
  rw [execLnext, command_live s _ live, done]
  rfl

/-- On NoFrame only the index has advanced (R223, R224). -/
theorem execLnext_noFrame (reading : s.l.readfinf = false) (dry : rxAnswer s = none) :
    execLnext s = .next (answered { s with
      l := { s.l with index := nextIndex s.l, started := true }
      host := { s.host with rxAnswers := s.host.rxAnswers.tail } } .ok 0) := by
  rw [execLnext, command_live s _ live, reading, dry, ← beginRead_index]
  rfl

theorem execLgdata_illegal {limit : Nat} (out : 240 < limit) :
    execLgdata limit s = .next (answered { s with ill := true } .illegalOperand 0) :=
  checked_sizeIllegal out live _

theorem execLgdata_other {limit : Nat} (legal : limit ≤ 240) (other : sumAt s.lf 8 4 ≠ cfg.tagData.toNat) :
    execLgdata limit s = .next (answered { s with pb := zeroBuffer 240 } .ok 0) := by
  rw [execLgdata, checked_sizeLegal legal, command_live s _ live, extractedPayload_other other,
    if_neg (mt (frameTag_eq_iff s.lf _).mp other)]
  rfl

theorem execLchk_noVerdict (unfinished : s.l.readfinf = false) : execLchk s = .next (answered s .noVerdict 0) := by
  rw [execLchk, command_live s _ live, unfinished]
  rfl

/-- LCHK answers 0 when a fault was flagged or the running index is not the last of the recorded count (R232). -/
theorem execLchk_failure (finish : s.l.readfinf = true) (unsound : s.l.fault = true ∨ s.l.index + 1 ≠ s.l.count) :
    execLchk s = .next (answered s .ok 0) := by
  have fails : (!s.l.fault && wideInc s.l.index == s.l.count) = false := by
    rw [wideInc_eq, Bool.and_eq_false_iff, Bool.not_eq_false', beq_eq_false_iff_ne]
    exact unsound
  rw [execLchk, command_live s _ live, finish, fails]
  rfl

theorem execLgetf_live : execLgetf s = .next (answered { s with fb := s.lf } .ok 0) :=
  command_live s _ live

theorem execLglbl_live : execLglbl s = .next (answered { s with lbl := s.l.label } .ok 0) :=
  command_live s _ live

end Live

/-! ## The statements -/

/-- Settles O53: LINIT writes the construction values, and no other command's write clears either flag. -/
theorem loaderConstruction : Obligations.LoaderConstruction :=
  ⟨fun _ live => ⟨rfl, execLinit_live live⟩,
    fun _ _ _ run other => ⟨fun fault => exec_keeps_loader_fault run fault other,
      fun done => exec_keeps_loader_finish run done other⟩⟩

/-- Settles O54: the three ways through LNEXT; with a frame, each clause is the equation of one arm of the dispatch on
the judged record. -/
theorem readNextFollowsTheStateMachine : Obligations.ReadNextFollowsTheStateMachine := by
  intro s live
  refine ⟨rfl, execLnext_done live, execLnext_noFrame live, fun reading f arrives =>
    ⟨!frameAccepted f (beginRead s.l), frameRejected_iff f s.l, dispatchFrame f (judge f (beginRead s.l)),
      exec_lnext_received live reading arrives, ?_⟩⟩
  refine ⟨(dispatchFrame_index f _).trans (beginRead_index s.l), dispatchFrame_started f _, dispatchFrame_fault f _,
    fun tag first version => ?head, fun tag head => ?finish, fun tag head => ?data,
    fun noHead noFinish noData => ?other⟩
  case head =>
    rw [dispatchFrame_head (l := judge f (beginRead s.l)) tag first version]
    exact ⟨fun k => byteAt_labelAt f (by decide), toNat_wideAt f (by decide), toNat_wideAt f (by decide), rfl,
      reading, rfl⟩
  case finish =>
    rw [dispatchFrame_finish (l := judge f (beginRead s.l)) head reading tag]
    split_ifs with provisional
    · exact ⟨rfl, head, rfl, rfl, fun _ => ⟨toNat_wideAt f (by decide), toNat_wideAt f (by decide)⟩,
        fun final => absurd provisional final⟩
    · exact ⟨rfl, head, rfl, rfl, fun zero => absurd zero provisional, fun _ => ⟨rfl, rfl⟩⟩
  case data =>
    rw [dispatchFrame_data (l := judge f (beginRead s.l)) head reading tag]
    exact ⟨rfl, rfl, rfl, rfl, head, reading⟩
  case other =>
    rw [dispatchFrame_other (l := judge f (beginRead s.l)) noHead noFinish noData, judge_beginRead]

/-- Settles O55: the range check, then one of two payloads by the tag of the current frame. -/
theorem dataExtractionFillsTheStaging : Obligations.DataExtractionFillsTheStaging := by
  intro limit s live _
  refine ⟨rfl, execLgdata_illegal live,
    fun legal tag => ⟨extractedPayload s.lf limit, exec_lgdata_data live legal tag, fun k hk => ?copied,
      fun k above below => ?zero⟩,
    fun legal other => ⟨zeroBuffer 240, execLgdata_other live legal other, fun k _ => byteAt_zeroBuffer 240 k⟩⟩
  case copied => rw [byteAt_extractedPayload tag legal (by omega), if_pos hk]
  case zero => rw [byteAt_extractedPayload tag legal below, if_neg (by omega)]

/-- Settles O56: no verdict, success or failure, with the test of R232 read as numbers. -/
theorem verdictNeedsAFinish : Obligations.VerdictNeedsAFinish := by
  intro s live
  simp only [Ne, ← succ_eq_iff_toNat]
  exact ⟨rfl, execLchk_noVerdict live, exec_lchk_success live, execLchk_failure live⟩

/-- Settles O57: each copy is one write, and the invariant says what label stands before a Head. -/
theorem loaderCopiesOut : Obligations.LoaderCopiesOut := by
  intro s live
  refine ⟨rfl, execLgetf_live live, rfl, execLglbl_live live, fun order noHead => ?_⟩
  obtain ⟨-, loader, -⟩ := (sequencerOrder_iff s).mp order
  obtain ⟨blank, -⟩ := loader.empty noHead
  exact (execLglbl_live live).trans (by rw [blank])

end Sys2Proof.Machine

end

/-! # Proofs of the staging and system statements

PBW and PBR, LBLW and LBLR each move one 16-byte slot of a buffer, written as the integer the operand bus carries and
read as one.  What that does lane by lane is said once, for a slot of any buffer.  SRD is one register write of the
value `specialReg` names; STATUS is read off bit by bit. -/

section

namespace Sys2Proof.Machine

open Sys2Proof.Safety Sys2Proof.Statements

/-! ## A 16-byte slot of a buffer -/

section Slot

variable {m off k : Nat} (buf : Buffer m) (v : Wide)

/-- A slot written from the bus holds its lanes (R66). -/
theorem byteAt_memWrite_slot (inside : off + 16 ≤ m) (hk : k < 16) :
    byteAt (memWrite buf off 16 v.toNat) (off + k) = lane v k := by
  rw [byteAt_memWrite _ _ _ _ _ (by omega), if_pos (by omega), Nat.add_sub_cancel_left, ofNat_digit_eq_lane]

/-- Writing a slot leaves every other byte (R63). -/
theorem byteAt_memWrite_outside_slot {a : Nat} (ha : a < m) (outside : a < off ∨ off + 16 ≤ a) :
    byteAt (memWrite buf off 16 v.toNat) a = byteAt buf a := by
  rw [byteAt_memWrite _ _ _ _ _ ha, if_neg (by omega)]

/-- A slot holds a whole bus value, so reading back what was written loses nothing. -/
theorem ofNat_memRead_memWrite_slot (inside : off + 16 ≤ m) :
    BitVec.ofNat 128 (memRead (memWrite buf off 16 v.toNat) off 16) = v := by
  rw [← sumAt_eq_memRead _ inside, sumAt_memWrite_wide buf v inside, BitVec.ofNat_toNat, BitVec.setWidth_eq]

/-- The lanes of a slot read as an integer are its bytes: writing that integer back would give the same slot. -/
theorem lane_ofNat_memRead_slot (inside : off + 16 ≤ m) (hk : k < 16) :
    lane (BitVec.ofNat 128 (memRead buf off 16)) k = byteAt buf (off + k) := by
  rw [← byteAt_memWrite_slot buf _ inside hk]
  refine byteAt_eq_of_sumAt_eq inside ?_ hk
  rw [sumAt_memWrite_wide buf _ inside, sumAt_eq_memRead buf inside]
  exact Nat.mod_eq_of_lt (memRead_lt buf off 16 inside)

end Slot

/-! ## The commands, with the latch clear -/

section Live

variable {s : State} (live : s.faulted = false)

include live

/-- A command whose operand is in range runs (R268). -/
theorem checked_inRange {p : Prop} [Decidable p] (legal : p) (run : State → State) :
    checked (decide p) s run = .next (run s) := by
  rw [decide_eq_true legal, checked_legal s run live]

/-- Out of range, it is refused before any other effect (R109, R263). -/
theorem checked_outOfRange {p : Prop} [Decidable p] (illegal : ¬ p) (run : State → State) :
    checked (decide p) s run = .next (answered { s with ill := true } .illegalOperand 0) := by
  rw [decide_eq_false illegal, checked_illegal s run live]

theorem execPbw_inRange {idx : Nat} (legal : idx ≤ 14) :
    execPbw idx s = .next (answered { s with pb := memWrite s.pb (16 * idx) 16 s.wdata.toNat } .ok 0) :=
  checked_inRange live legal _

theorem execPbr_inRange {idx : Nat} (legal : idx ≤ 14) :
    execPbr idx s = .next (answered s .ok (BitVec.ofNat 128 (memRead s.pb (16 * idx) 16))) :=
  checked_inRange live legal _

/-- PBR of a chunk just written answers what was written (R247, R248). -/
theorem execPbr_written {idx : Nat} {p : Payload} {v : Wide} (legal : idx ≤ 14)
    (written : s.pb = memWrite p (16 * idx) 16 v.toNat) : execPbr idx s = .next (answered s .ok v) := by
  rw [execPbr_inRange live legal, written, ofNat_memRead_memWrite_slot p v (by omega)]

theorem execLblw_inRange {half : Nat} (legal : half ≤ 1) :
    execLblw half s = .next (answered { s with lbl := memWrite s.lbl (16 * half) 16 s.wdata.toNat } .ok 0) :=
  checked_inRange live legal _

theorem execLblr_inRange {half : Nat} (legal : half ≤ 1) :
    execLblr half s = .next (answered s .ok (BitVec.ofNat 128 (memRead s.lbl (16 * half) 16))) :=
  checked_inRange live legal _

/-- LBLR of a half just written answers what was written (R249, R250). -/
theorem execLblr_written {half : Nat} {p : Label} {v : Wide} (legal : half ≤ 1)
    (written : s.lbl = memWrite p (16 * half) 16 v.toNat) : execLblr half s = .next (answered s .ok v) := by
  rw [execLblr_inRange live legal, written, ofNat_memRead_memWrite_slot p v (by omega)]

/-- SRD of a number that names a special register (R246). -/
theorem execSrd_named {n : Nat} {v : Wide} (rd : Reg) (named : specialReg s n = some v) :
    execSrd rd n s = .next (answered (withReg s rd v) .ok 0) := by
  refine (command_live s _ live).trans ?_
  rw [named]
  rfl

/-- SRD of a number that names none (R109, R246). -/
theorem execSrd_unnamed {n : Nat} (rd : Reg) (unnamed : specialReg s n = none) :
    execSrd rd n s = .next (answered { s with ill := true } .illegalOperand 0) := by
  refine (command_live s _ live).trans ?_
  rw [unnamed, raise_illegalOperand]

end Live

/-! ## The special registers -/

theorem specialReg_eq_none (s : State) {n : Nat} (above : 7 < n) : specialReg s n = none := by
  obtain ⟨k, rfl⟩ := Nat.exists_eq_add_of_le' (show 8 ≤ n from above)
  rfl

/-! A flag appended below the others is bit 0, and moves them up by one. -/

theorem getLsbD_flagBit_zero (b : Bool) : (flagBit b).getLsbD 0 = b := BitVec.getLsbD_ofBool b 0

theorem getLsbD_append_flagBit_zero {n : Nat} (x : BitVec n) (b : Bool) : (x ++ flagBit b).getLsbD 0 = b := by
  rw [BitVec.getLsbD_append, if_pos Nat.one_pos, getLsbD_flagBit_zero]

theorem getLsbD_append_flagBit_succ {n : Nat} (x : BitVec n) (b : Bool) (k : Nat) :
    (x ++ flagBit b).getLsbD (k + 1) = x.getLsbD k := by
  rw [BitVec.getLsbD_append, if_neg (by omega), Nat.add_sub_cancel]

/-- The bits of STATUS (R34). -/
theorem statusWord_bits (s : State) :
    (statusWord s).getLsbD 0 = s.b.wroteHead ∧ (statusWord s).getLsbD 1 = s.b.wroteFinish ∧
      (statusWord s).getLsbD 2 = s.l.readhead ∧ (statusWord s).getLsbD 3 = s.l.readfinf ∧
      (statusWord s).getLsbD 4 = s.l.fault ∧ (statusWord s).getLsbD 5 = s.l.started ∧
      (statusWord s).getLsbD 6 = s.faulted ∧ (statusWord s).getLsbD 7 = s.ill := by
  simp only [statusWord, getLsbD_append_flagBit_zero, getLsbD_append_flagBit_succ, getLsbD_flagBit_zero, and_self]

/-- Zero-extended to a register, STATUS keeps its eight bits (R33). -/
theorem getLsbD_setWidth_statusWord (s : State) {k : Nat} (hk : k < 128) :
    ((statusWord s).setWidth 128).getLsbD k = (statusWord s).getLsbD k := by
  rw [BitVec.getLsbD_setWidth, decide_eq_true hk, Bool.true_and]

theorem toNat_statusWord_lt (s : State) : ((statusWord s).setWidth 128).toNat < 256 := by
  rw [BitVec.toNat_setWidth_of_le (by decide)]
  exact (statusWord s).isLt

/-! ## The statements -/

/-- Settles O43: chunk `idx` is a slot inside the 240 bytes of PB. -/
theorem payloadChunksMoveByLanes : Obligations.PayloadChunksMoveByLanes := by
  intro idx s live _
  unfold exec
  refine ⟨rfl, rfl, fun legal => ?write, fun legal => ?read, fun above =>
    ⟨checked_outOfRange live (Nat.not_le.mpr above) _, checked_outOfRange live (Nat.not_le.mpr above) _⟩⟩
  all_goals have inside : 16 * idx + 16 ≤ 240 := by omega
  case write =>
    exact ⟨_, execPbw_inRange live legal, fun k => byteAt_memWrite_slot s.pb s.wdata inside,
      fun a => byteAt_memWrite_outside_slot s.pb s.wdata, execPbr_written (by exact live) legal rfl⟩
  case read => exact ⟨_, execPbr_inRange live legal, fun k => lane_ofNat_memRead_slot s.pb inside⟩

/-- Settles O44: half `half` is a slot inside the 32 bytes of LBL. -/
theorem labelHalvesMoveByLanes : Obligations.LabelHalvesMoveByLanes := by
  intro half s live _
  unfold exec
  refine ⟨rfl, rfl, fun legal => ?write, fun legal => ?read, fun above =>
    ⟨checked_outOfRange live (Nat.not_le.mpr above) _, checked_outOfRange live (Nat.not_le.mpr above) _⟩⟩
  all_goals have inside : 16 * half + 16 ≤ 32 := by omega
  case write =>
    exact ⟨_, execLblw_inRange live legal, fun k => byteAt_memWrite_slot s.lbl s.wdata inside,
      fun a => byteAt_memWrite_outside_slot s.lbl s.wdata, execLblr_written (by exact live) legal rfl⟩
  case read => exact ⟨_, execLblr_inRange live legal, fun k => lane_ofNat_memRead_slot s.lbl inside⟩

/-- Settles O45: each number up to 7 names its register, and with the latch clear bit 6 of STATUS reads 0. -/
theorem specialRegisterReads : Obligations.SpecialRegisterReads := by
  intro rd n s live _
  unfold exec
  refine ⟨rfl, ⟨_, execSrd_named live rd rfl, ?status⟩, execSrd_named live rd rfl, execSrd_named live rd rfl,
    execSrd_named live rd rfl, execSrd_named live rd rfl, execSrd_named live rd rfl, execSrd_named live rd rfl,
    execSrd_named live rd rfl, fun above => execSrd_unnamed live rd (specialReg_eq_none s above)⟩
  case status =>
    simp only [getLsbD_setWidth_statusWord s, Nat.reduceLT]
    obtain ⟨head, finish, readhead, readfinf, fault, started, faulted, ill⟩ := statusWord_bits s
    exact ⟨head, finish, readhead, readfinf, fault, started, faulted.trans live, ill, toNat_statusWord_lt s⟩

end Sys2Proof.Machine

end

/-! # Proofs of the exception statements

The `FAULTED` latch: while it is set every command and every word gets the one answer, and only a reset clears it; a
zero divisor sets it.  Then the status table, from what every command can answer, said once (`StatusSource`). -/

section

namespace Sys2Proof.Machine

open Sys2Proof.Safety Sys2Proof.Statements

/-! ## With the latch set -/

section Latched

variable {s : State} (latched : s.faulted = true)

include latched

/-- Every command is behind the latch gate, so none runs (R266). -/
theorem exec_faulted (i : Instr) : exec i s = .next (answered s .faulted 0) := by
  obtain ⟨run, gated⟩ := exec_gated i
  rw [gated, command_faulted s run latched]

/-- A word, legal or not, meets the latch before anything else (R110, R266, R268). -/
theorem runWord_faulted (c : Word32) : runWord c s = .next (answered s .faulted 0) := by
  cases hdec : decode c with
  | ok i => rw [runWord_decoded s c i hdec, exec_faulted latched i]
  | error e => rw [runWord_illegal s c e hdec, command_faulted s _ latched]

/-- Only a reset clears the latch (R266). -/
theorem reset_of_step_clears_faulted {t : State} (h : step s = .next t) (cleared : t.faulted = false) :
    s.host.actions.head? = some .reset := by
  have kept : ¬ t.faulted = true := by simp [cleared]
  cases step_effect h with
  | reset pending => exact pending
  | @command _ _ v i _ _ runs =>
    cases (exec_faulted (s := (dropAction s).setWdata v) latched i).symm.trans runs
    exact absurd latched kept
  | idle | latched | illegal | seek => exact absurd latched kept

end Latched

/-- Settles O6: setting is a row of the table of writers, answering is the latch gate, and clearing is a reset. -/
theorem faultedLatchAnswersEveryCommand : Obligations.FaultedLatchAnswersEveryCommand := by
  refine ⟨rfl, fun i s t live h raised => ?sets, fun i s latched => exec_faulted latched i,
    fun s c v rest latched pending => ?word, fun s t latched => reset_of_step_clears_faulted latched⟩
  case sets => exact (exec_write h).faulted (by simp [live, raised])
  case word => exact (step_command s c v rest pending).trans (runWord_faulted (by exact latched) c)

/-! ## The zero divisor -/

/-- WDIV and WMOD are the commands with a divisor (R265). -/
theorem divisorOf_eq_some {i : Instr} {rb : Reg} (h : divisorOf i = some rb) :
    ∃ rd ra, i = .wdiv rd ra rb ∨ i = .wmod rd ra rb := by
  unfold divisorOf at h
  split at h <;> cases h
  case h_1 rd ra => exact ⟨rd, ra, .inl rfl⟩
  case h_2 rd ra => exact ⟨rd, ra, .inr rfl⟩

/-- A zero divisor sets the latch and writes nothing else, whichever of the two commands divides (R265). -/
theorem exec_divisor_zero {i : Instr} {rb : Reg} {s : State} (live : s.faulted = false)
    (divisor : divisorOf i = some rb) (zero : s.reg rb = 0) :
    exec i s = .next (answered { s with faulted := true } .divByZero 0) := by
  unfold exec
  obtain ⟨rd, ra, rfl | rfl⟩ := divisorOf_eq_some divisor
  · exact divideReg_zero live zero
  · exact divideReg_zero live zero

/-- Settles O26: the division sets the latch, and every command after it finds the latch set. -/
theorem zeroDivisorIsFatal : Obligations.ZeroDivisorIsFatal :=
  fun _ _ _ live divisor zero => ⟨exec_divisor_zero live divisor zero, exec_faulted rfl⟩

/-! ## The status of an answer -/

/-- When a command `i` run in state `s` can answer each status (R260). -/
def StatusSource (i : Instr) (s : State) : Status → Prop
  | .ok => True
  | .typeMismatch => usesView i
  | .illegalCommand => False
  | .illegalOperand => hasOperandRange i
  | .divByZero => ∃ rb, divisorOf i = some rb
  | .faulted => s.faulted = true
  | .noVerdict => i = .lchk

/-- From `s` to `t` the unit gave one answer, with a status that `i` can answer in `s`. -/
def AnswersFromSource (i : Instr) (s t : State) : Prop :=
  ∃ st v, t.host.responses = s.host.responses ++ [⟨st, v⟩] ∧ StatusSource i s st

section Sources

variable {i : Instr} {s t : State}

/-- Two accounts of one answer agree on its status. -/
theorem AnswersFromSource.source {st : Status} {v : Wide} (h : AnswersFromSource i s t)
    (answer : t.host.responses = s.host.responses ++ [⟨st, v⟩]) : StatusSource i s st := by
  obtain ⟨st', v', answer', source⟩ := h
  have same : [(⟨st', v'⟩ : Response)] = [⟨st, v⟩] := List.append_cancel_left (answer'.symm.trans answer)
  cases same
  exact source

/-- OK is every command's to answer. -/
theorem AnswersFromSource.respond {u : State} {v : Wide} (kept : u.host.responses = s.host.responses) :
    AnswersFromSource i s (u.respond v) :=
  ⟨.ok, v, by rw [State.respond_responses, kept], trivial⟩

/-- A raised condition is answered with its own status (R260, R270). -/
theorem AnswersFromSource.raise (c : Condition) (source : StatusSource i s (conditionStatus c)) :
    AnswersFromSource i s (raise c s) :=
  ⟨conditionStatus c, 0, by cases c <;> rfl, source⟩

/-- FAULTED comes from the gate, and from a set latch only (R266). -/
theorem AnswersFromSource.command {run : State → State} (h : command s run = .next t)
    (hrun : AnswersFromSource i s (run s)) : AnswersFromSource i s t := by
  cases latch : s.faulted with
  | true => cases (command_faulted s run latch).symm.trans h; exact .raise .faulted latch
  | false => cases (command_live s run latch).symm.trans h; exact hrun

theorem AnswersFromSource.checked {legal : Bool} {run : State → State} (h : checked legal s run = .next t)
    (range : hasOperandRange i) (hrun : AnswersFromSource i s (run s)) : AnswersFromSource i s t := by
  refine .command h ?_
  cases legal
  · exact .raise .illegalOperand range
  · exact hrun

theorem AnswersFromSource.writeReg {rd : Reg} {v : State → Wide} (h : writeReg rd v s = .next t) :
    AnswersFromSource i s t := .command h (.respond rfl)

theorem AnswersFromSource.answerValue {v : State → Wide} (h : answerValue v s = .next t) : AnswersFromSource i s t :=
  .command h (.respond rfl)

theorem AnswersFromSource.divideReg {f : Wide → Wide → Wide} {rd ra rb : Reg} (h : divideReg f rd ra rb s = .next t)
    (divisor : divisorOf i = some rb) : AnswersFromSource i s t := by
  refine .command h ?_
  split
  · exact .raise .divByZero ⟨rb, divisor⟩
  · exact .respond rfl

theorem AnswersFromSource.withKind {kind : Nat} {run : Kind → State → State} (h : withKind kind s run = .next t)
    (range : hasOperandRange i) (hrun : ∀ k, AnswersFromSource i s (run k s)) : AnswersFromSource i s t := by
  refine .command h ?_
  cases kindOf kind with
  | none => exact .raise .illegalOperand range
  | some k => exact hrun k

theorem AnswersFromSource.withField {view fld idx : Nat} {run : Field → State → State}
    (h : withField view fld idx s run = .next t) (range : hasOperandRange i) (typed : usesView i)
    (hrun : ∀ fd, AnswersFromSource i s (run fd s)) : AnswersFromSource i s t := by
  refine .command h ?_
  cases fieldOf view fld idx with
  | none => exact .raise .illegalOperand range
  | some fd =>
    dsimp only
    split
    · exact hrun fd
    · exact .raise .typeMismatch typed

/-- A frame handed over or dropped is answered OK either way (R77). -/
theorem AnswersFromSource.writeFrame (f : Frame) (b : Builder) : AnswersFromSource i s (writeFrame f b s) := by
  obtain ⟨-, handed, -⟩ | ⟨-, dropped⟩ := writeFrame_handsOver s f b
  · exact ⟨.ok, _, congrArg (·.host.responses) handed, trivial⟩
  · exact ⟨.ok, _, congrArg (·.host.responses) dropped, trivial⟩

theorem AnswersFromSource.guarded {run : State → State} (hrun : AnswersFromSource i s (run s)) :
    AnswersFromSource i s (guarded run s) := by
  unfold Machine.guarded
  split
  · exact hrun
  · exact .respond rfl

end Sources

/-- Every command answers with a status whose source it is: by the shape its meaning shares with others. -/
theorem exec_answersFromSource {i : Instr} {s t : State} (h : exec i s = .next t) : AnswersFromSource i s t := by
  unfold exec at h
  cases i with
  | wld | wldu | wmov | wadd | wsub | wmul | winc | wdec | wand | wor | wxor | wnot | wshl | wshr | wshli | wshri =>
    exact .writeReg h
  | wrd | wcvt8 | wcvt16 | wcvt32 | wcvt64 | wcmp => exact .answerValue h
  | crcinit | crcpk | crcrd | fval | fisv | binit | linit | lgetf | lglbl => exact .command h (.respond rfl)
  | wdiv | wmod => exact .divideReg h rfl
  | crcpb | crcpr | pbw | pbr | lblw | lblr | lgdata => exact .checked h trivial (.respond rfl)
  | fnew => exact .withKind h trivial fun _ => .respond rfl
  | fchk =>
    refine .withKind h trivial fun k => ?_
    split
    · exact .respond rfl
    · exact .raise .typeMismatch trivial
  | fget | fset => exact .withField h trivial trivial fun _ => .respond rfl
  | bwhead | bwheadx => exact .command h (.writeFrame _ _)
  | bwdata => exact .checked h trivial (.guarded (.writeFrame _ _))
  | bwcont | bwfin => exact .command h (.guarded (.writeFrame _ _))
  | lnext =>
    refine .command h ?_
    split
    · exact .respond rfl
    · cases rxAnswer s <;> exact .respond rfl
  | lchk =>
    refine .command h ?_
    split
    · exact .respond rfl
    · exact .raise .noVerdict rfl
  | srd rd sreg =>
    refine .command h ?_
    cases specialReg s sreg with
    | none => exact .raise .illegalOperand trivial
    | some v => exact .respond rfl

/-- The codes of R260 leave no gap and go no further than 0x06. -/
theorem statusCode_toNat_lt (st : Status) : (statusCode st).toNat < 7 := by
  cases st <;> decide

/-- Settles O11: the codes are read off the table, and the answer's status has its source in the command. -/
theorem statusTable : Obligations.StatusTable := by
  refine ⟨rfl, rfl, rfl, rfl, rfl, rfl, rfl, statusCode_toNat_lt, fun i s t st v h answer => ?_⟩
  have source : StatusSource i s st := (exec_answersFromSource h).source answer
  cases st with
  | ok => exact ⟨nofun, nofun, nofun, nofun, nofun, nofun⟩
  | typeMismatch => exact ⟨fun _ => source, nofun, nofun, nofun, nofun, nofun⟩
  | illegalCommand => exact source.elim
  | illegalOperand => exact ⟨nofun, nofun, fun _ => source, nofun, nofun, nofun⟩
  | divByZero => exact ⟨nofun, nofun, nofun, fun _ => source, nofun, nofun⟩
  | faulted => exact ⟨nofun, nofun, nofun, nofun, fun _ => source, nofun⟩
  | noVerdict => exact ⟨nofun, nofun, nofun, nofun, nofun, fun _ => source⟩

end Sys2Proof.Machine

end

/-! # Proof of the liveness statement

The latch gate always answers, and every command and every illegal word is behind it; the host's other actions, and its
having none, are steps by definition (log entries 4, 8 and 9). -/

section

namespace Sys2Proof.Machine

/-- Latched or not, the gate answers a next state (R9, R266). -/
theorem command_hasNext (s : State) (run : State → State) : ∃ t, command s run = .next t := ⟨_, rfl⟩

/-- No command faults or is refused: each is a run behind the gate. -/
theorem exec_hasNext (i : Instr) (s : State) : ∃ t, exec i s = .next t := by
  obtain ⟨run, gated⟩ := exec_gated i
  rw [gated]
  exact command_hasNext s run

/-- A word that is no command is answered too (R108). -/
theorem runWord_hasNext (cmd : Word32) (s : State) : ∃ t, runWord cmd s = .next t := by
  cases hdec : decode cmd with
  | ok i => rw [runWord_decoded s cmd i hdec]; exact exec_hasNext i s
  | error e => rw [runWord_illegal s cmd e hdec]; exact command_hasNext s _

/-- One step per form of the host's next action, idling included. -/
theorem step_hasNext (s : State) : ∃ t, step s = .next t := by
  cases pending : s.host.actions with
  | nil => exact ⟨_, step_idle s pending⟩
  | cons action rest =>
    cases action with
    | command cmd wdata => rw [step_command s cmd wdata rest pending]; exact runWord_hasNext cmd _
    | seek pos => exact ⟨_, step_seek s pos rest pending⟩
    | reset => exact ⟨_, step_reset s rest pending⟩

/-- Settles O7: by the host's next action for a step, by the latch gate for a command. -/
theorem stepAlwaysHasNextState : Obligations.StepAlwaysHasNextState := ⟨step_hasNext, exec_hasNext⟩

end Sys2Proof.Machine

end
